-- ==== Sys2Proof/Word.lean ====
section
/-! DEFINITION. The value widths of the training-aes CORE (00_scope.md R13) and nothing else: every operation on them that a
rule defines stands in Machine/Operands.lean. -/

namespace Sys2Proof

/-- A byte: an unsigned 8-bit value (R13). -/
abbrev Byte := BitVec 8

/-- A word: an unsigned 32-bit value (R13). CMD, a schedule word of the software path and a dword of a lane have this width. -/
abbrev Word := BitVec 32

/-- Half a lane: what R15's `low64` and `high64` give. -/
abbrev Half := BitVec 64

/-- A lane: an unsigned 128-bit value (R13). A 16-byte array, an AES state, a block and DOUT are held as the lane that
corresponds to them: byte i is bits [8i+7:8i] (R15, R17, R41). -/
abbrev Lane := BitVec 128

/-- The 32-byte data field DIN of a request, 256 bits: byte i is bits [8i+7:8i] (R24, R41). -/
abbrev Data := BitVec 256

end Sys2Proof
end

