-- ==== Sys2Proof/Config.lean ====
section
/-! DEFINITION. The instance parameters KEY_BITS and PATH (R8-R11), the sizes they fix, and the free values of the model
(what a hardware reset leaves in the schedule storage, R260, R261). -/

namespace Sys2Proof

/-- KEY_BITS, restricted to the three values the block admits (R9). -/
inductive KeySize where
  | k128
  | k192
  | k256
  deriving DecidableEq, Repr

/-- PATH: which schedule SETKEY builds and which rounds ENCRYPT and DECRYPT run (R10). -/
inductive Path where
  | sw
  | hw
  deriving DecidableEq, Repr

/-- SEL of RDRK: 0 selects the forward schedule, 1 the decryption schedule (R60, R83). -/
inductive Sel where
  | fwd
  | dec
  deriving DecidableEq, Repr

/-- The parameters of one instance, fixed when it is made; no command and no reset changes them (R9, R10, R260). -/
structure Params where
  keySize : KeySize
  path : Path
  deriving DecidableEq, Repr

/-- The value of KEY_BITS (R9). -/
def KeySize.bits : KeySize → Nat
  | .k128 => 128
  | .k192 => 192
  | .k256 => 256

/-- The key size a KEY_BITS value names; every value but 128, 192 and 256 has none (R9, U16). -/
def KeySize.ofBits (n : Nat) : Option KeySize :=
  if n = 128 then some .k128 else if n = 192 then some .k192 else if n = 256 then some .k256 else none

/-- Nk = KEY_BITS / 32, the key length in words (R8, R9). -/
def KeySize.nk (k : KeySize) : Nat := k.bits / 32

/-- Nr = Nk + 6, the number of rounds (R8, R9). -/
def KeySize.nr (k : KeySize) : Nat := k.nk + 6

/-- Nb, the block length in words, "always 4 for AES" (R8). -/
def nb : Nat := 4

/-- How many words W has: Nb·(Nr+1) when PATH = SW; the array does not exist when PATH = HW (R11, R26). -/
def Params.wordCount (p : Params) : Nat :=
  match p.path with
  | .sw => nb * (p.keySize.nr + 1)
  | .hw => 0

/-- How many lanes RK has, and how many DRK has: Nr+1 when PATH = HW; neither exists when PATH = SW (R11, R27, R28). -/
def Params.laneCount (p : Params) : Nat :=
  match p.path with
  | .sw => 0
  | .hw => p.keySize.nr + 1

/-- FREE VALUE. What the n-th hardware reset leaves in W[i] where `old` stood: the spec neither erases it nor keeps it
(R260, R261, U1, U2). Log entry 4. -/
opaque Config.wAfterReset (n i : Nat) (old : Word) : Word

/-- FREE VALUE. What the n-th hardware reset leaves in RK[i] where `old` stood (R260, R261, U1, U2). Log entry 4. -/
opaque Config.rkAfterReset (n i : Nat) (old : Lane) : Lane

/-- FREE VALUE. What the n-th hardware reset leaves in DRK[i] where `old` stood (R260, R261, U1, U2). Log entry 4. -/
opaque Config.drkAfterReset (n i : Nat) (old : Lane) : Lane

end Sys2Proof
end

