-- ==== Sys2Proof/Syntax.lean ====
section
/-! DEFINITION. The 22 commands of R62 as syntax: one constructor for each row of spec/opcode_table.json. A command names no
register (R21, R61); its data operands travel in DIN, so a constructor holds only what the command word's fields carry. -/

namespace Sys2Proof

/-- One command of R62, with the operands its command word carries (R60, R66). -/
inductive Instr where
  /-- 0x01 SETKEY (R80). -/
  | setkey
  /-- 0x02 ENCRYPT (R81). -/
  | encrypt
  /-- 0x03 DECRYPT (R82). -/
  | decrypt
  /-- 0x04 RDRK r, fwd | dec (R83): IMM8 is the round index r, SEL the schedule. -/
  | rdrk (r : Nat) (sel : Sel)
  /-- 0x10 SUBBYTES (R110). -/
  | subbytes
  /-- 0x11 INVSUBBYTES (R111). -/
  | invsubbytes
  /-- 0x12 SHIFTROWS (R112). -/
  | shiftrows
  /-- 0x13 INVSHIFTROWS (R113). -/
  | invshiftrows
  /-- 0x14 MIXCOLUMNS (R114). -/
  | mixcolumns
  /-- 0x15 INVMIXCOLUMNS (R115). -/
  | invmixcolumns
  /-- 0x16 ADDROUNDKEY (R116). -/
  | addroundkey
  /-- 0x20 AESENC (R160). -/
  | aesenc
  /-- 0x21 AESENCLAST (R161). -/
  | aesenclast
  /-- 0x22 AESDEC (R162). -/
  | aesdec
  /-- 0x23 AESDECLAST (R163). -/
  | aesdeclast
  /-- 0x24 AESIMC (R164). -/
  | aesimc
  /-- 0x25 AESKEYGENASSIST imm8 (R165): IMM8 is the round constant. -/
  | aeskeygenassist (imm8 : Byte)
  /-- 0x30 XTIME (R220). -/
  | xtime
  /-- 0x31 GFMUL (R221). -/
  | gfmul
  /-- 0x32 SUBWORD (R140). -/
  | subword
  /-- 0x33 ROTWORD (R141). -/
  | rotword
  /-- 0x34 KEXPT i (R142): IMM8 is the word index i. -/
  | kexpt (i : Nat)
  deriving DecidableEq, Repr

end Sys2Proof
end

