-- ==== Sys2Proof/WellFormed.lean ====
section
/-! DEFINITION. Which terms of `Instr` are commands the encoding can carry: IMM8 is an unsigned 8-bit field (R60, R66). A
range that a rule rejects with ERR_ARG (RDRK above Nr, KEXPT outside [Nk, 4(Nr+1))) is no matter of well-formedness: "the
encoding admits 0-255" (R66). -/

namespace Sys2Proof

/-- The command's operands fit the fields of the command word. -/
def Instr.wellFormed : Instr → Bool
  | .setkey => true
  | .encrypt => true
  | .decrypt => true
  | .rdrk r _ => decide (r < 256)
  | .subbytes => true
  | .invsubbytes => true
  | .shiftrows => true
  | .invshiftrows => true
  | .mixcolumns => true
  | .invmixcolumns => true
  | .addroundkey => true
  | .aesenc => true
  | .aesenclast => true
  | .aesdec => true
  | .aesdeclast => true
  | .aesimc => true
  | .aeskeygenassist _ => true
  | .xtime => true
  | .gfmul => true
  | .subword => true
  | .rotword => true
  | .kexpt i => decide (i < 256)

end Sys2Proof
end

