-- ==== Sys2Proof/Decode.lean ====
section
/-! DEFINITION. The command word: its fields (R60), the decoder (R62, R63, R66, R67), total and rejecting by name, and the
encoder and the match/mask table written from R60, R62 and R68. -/

namespace Sys2Proof

/-- CMD.OPC = CMD[7:0] (R60). -/
def cmdOpc (cmd : Word) : Byte := cmd.extractLsb' 0 8

/-- CMD.IMM8 = CMD[15:8] (R60). -/
def cmdImm8 (cmd : Word) : Byte := cmd.extractLsb' 8 8

/-- CMD.SEL = CMD[16] (R60). -/
def cmdSel (cmd : Word) : BitVec 1 := cmd.extractLsb' 16 1

/-- CMD.RSV = CMD[31:17] (R60). -/
def cmdRsv (cmd : Word) : BitVec 15 := cmd.extractLsb' 17 15

/-- Why a command word is not legal. All four end in the one status ERR_ILLEGAL (R63, R67). -/
inductive Illegal where
  /-- RSV is not 0 (R63, condition 1). -/
  | reservedBits
  /-- OPC is none of the 22 values of R62 (R63, condition 2). -/
  | unassignedOpcode
  /-- IMM8 is not 0 on a command that uses none (R63, condition 3). -/
  | immediateNotZero
  /-- SEL is not 0 on a command other than RDRK (R63, condition 4). -/
  | selectNotZero
  deriving DecidableEq, Repr

/-- SEL as RDRK's operand (R60, R83). -/
def selOf (b : BitVec 1) : Sel := if b = 1 then .dec else .fwd

/-- A command that uses neither IMM8 nor SEL: both must be 0 (R63, conditions 3 and 4). -/
def fixedForm (cmd : Word) (i : Instr) : Except Illegal Instr :=
  if cmdImm8 cmd ≠ 0 then .error .immediateNotZero
  else if cmdSel cmd ≠ 0 then .error .selectNotZero
  else .ok i

/-- A command that uses IMM8 and not SEL: SEL must be 0 (R63, condition 4). -/
def immForm (cmd : Word) (i : Instr) : Except Illegal Instr :=
  if cmdSel cmd ≠ 0 then .error .selectNotZero else .ok i

/-- The opcode map of R62, for a word whose RSV is 0. IMM8 is unsigned and never sign-extended (R66). -/
def decodeOpc (cmd : Word) : Except Illegal Instr :=
  match (cmdOpc cmd).toNat with
  | 0x01 => fixedForm cmd .setkey
  | 0x02 => fixedForm cmd .encrypt
  | 0x03 => fixedForm cmd .decrypt
  | 0x04 => .ok (.rdrk (cmdImm8 cmd).toNat (selOf (cmdSel cmd)))
  | 0x10 => fixedForm cmd .subbytes
  | 0x11 => fixedForm cmd .invsubbytes
  | 0x12 => fixedForm cmd .shiftrows
  | 0x13 => fixedForm cmd .invshiftrows
  | 0x14 => fixedForm cmd .mixcolumns
  | 0x15 => fixedForm cmd .invmixcolumns
  | 0x16 => fixedForm cmd .addroundkey
  | 0x20 => fixedForm cmd .aesenc
  | 0x21 => fixedForm cmd .aesenclast
  | 0x22 => fixedForm cmd .aesdec
  | 0x23 => fixedForm cmd .aesdeclast
  | 0x24 => fixedForm cmd .aesimc
  | 0x25 => immForm cmd (.aeskeygenassist (cmdImm8 cmd))
  | 0x30 => fixedForm cmd .xtime
  | 0x31 => fixedForm cmd .gfmul
  | 0x32 => fixedForm cmd .subword
  | 0x33 => fixedForm cmd .rotword
  | 0x34 => immForm cmd (.kexpt (cmdImm8 cmd).toNat)
  | _ => .error .unassignedOpcode

/-- The decoder: every 32-bit word is one command of R62 or is illegal (R63, R67). -/
def decode (cmd : Word) : Except Illegal Instr :=
  if cmdRsv cmd ≠ 0 then .error .reservedBits else decodeOpc cmd

/-- The command the decoder reads from a word numbered as spec/opcode_table.json numbers it. CMD is one 32-bit word with
bit 0 its least significant bit (R60), so the word is CMD itself. -/
def decodeTableWord (nbits w : Nat) : Option Instr :=
  match decode (BitVec.ofNat 32 (w % 2 ^ nbits)) with
  | .ok i => some i
  | .error _ => none

/-- The OPC value of each command (R62). -/
def opcode : Instr → Byte
  | .setkey => 0x01
  | .encrypt => 0x02
  | .decrypt => 0x03
  | .rdrk _ _ => 0x04
  | .subbytes => 0x10
  | .invsubbytes => 0x11
  | .shiftrows => 0x12
  | .invshiftrows => 0x13
  | .mixcolumns => 0x14
  | .invmixcolumns => 0x15
  | .addroundkey => 0x16
  | .aesenc => 0x20
  | .aesenclast => 0x21
  | .aesdec => 0x22
  | .aesdeclast => 0x23
  | .aesimc => 0x24
  | .aeskeygenassist _ => 0x25
  | .xtime => 0x30
  | .gfmul => 0x31
  | .subword => 0x32
  | .rotword => 0x33
  | .kexpt _ => 0x34

/-- The IMM8 field of a command: its immediate, and 0 where it uses none (R62, R66). -/
def immField : Instr → Byte
  | .setkey => 0
  | .encrypt => 0
  | .decrypt => 0
  | .rdrk r _ => BitVec.ofNat 8 r
  | .subbytes => 0
  | .invsubbytes => 0
  | .shiftrows => 0
  | .invshiftrows => 0
  | .mixcolumns => 0
  | .invmixcolumns => 0
  | .addroundkey => 0
  | .aesenc => 0
  | .aesenclast => 0
  | .aesdec => 0
  | .aesdeclast => 0
  | .aesimc => 0
  | .aeskeygenassist imm8 => imm8
  | .xtime => 0
  | .gfmul => 0
  | .subword => 0
  | .rotword => 0
  | .kexpt i => BitVec.ofNat 8 i

/-- The SEL field of a command: 1 for RDRK of the decryption schedule and 0 for everything else (R60, R62). -/
def selField : Instr → BitVec 1
  | .setkey => 0
  | .encrypt => 0
  | .decrypt => 0
  | .rdrk _ .fwd => 0
  | .rdrk _ .dec => 1
  | .subbytes => 0
  | .invsubbytes => 0
  | .shiftrows => 0
  | .invshiftrows => 0
  | .mixcolumns => 0
  | .invmixcolumns => 0
  | .addroundkey => 0
  | .aesenc => 0
  | .aesenclast => 0
  | .aesdec => 0
  | .aesdeclast => 0
  | .aesimc => 0
  | .aeskeygenassist _ => 0
  | .xtime => 0
  | .gfmul => 0
  | .subword => 0
  | .rotword => 0
  | .kexpt _ => 0

/-- The command word RSV ++ SEL ++ IMM8 ++ OPC, most significant field first (R60, R68). -/
def encode (i : Instr) : Word := (0 : BitVec 15) ++ selField i ++ immField i ++ opcode i

/-- The mask of R68's row of a command: the bits its pattern fixes. -/
def rowMask : Instr → Word
  | .setkey => 0xFFFFFFFF
  | .encrypt => 0xFFFFFFFF
  | .decrypt => 0xFFFFFFFF
  | .rdrk _ _ => 0xFFFE00FF
  | .subbytes => 0xFFFFFFFF
  | .invsubbytes => 0xFFFFFFFF
  | .shiftrows => 0xFFFFFFFF
  | .invshiftrows => 0xFFFFFFFF
  | .mixcolumns => 0xFFFFFFFF
  | .invmixcolumns => 0xFFFFFFFF
  | .addroundkey => 0xFFFFFFFF
  | .aesenc => 0xFFFFFFFF
  | .aesenclast => 0xFFFFFFFF
  | .aesdec => 0xFFFFFFFF
  | .aesdeclast => 0xFFFFFFFF
  | .aesimc => 0xFFFFFFFF
  | .aeskeygenassist _ => 0xFFFF00FF
  | .xtime => 0xFFFFFFFF
  | .gfmul => 0xFFFFFFFF
  | .subword => 0xFFFFFFFF
  | .rotword => 0xFFFFFFFF
  | .kexpt _ => 0xFFFF00FF

/-- The match value of R68's row of a command: OPC in a word of zeros. -/
def rowMatch (i : Instr) : Word := (opcode i).setWidth 32

end Sys2Proof
end

