-- ==== Sys2Proof/Machine/State.lean ====
section
/-! DEFINITION. The state of one instance of the block (R20, R35) with the inputs its host has presented, the reasons a step
could stop, and the state right after reset (R260). -/

namespace Sys2Proof.Machine

/-- What the host or the platform does to the block. A request is an input of the step that executes it and is not stored
after that (R24, R51). -/
inductive Input where
  /-- A request: the command word CMD and the 32 bytes of DIN (R24, R61). -/
  | request (cmd : Word) (din : Data)
  /-- Hardware reset, applied between commands (R260, R262). -/
  | reset
  /-- Hardware reset asserted while this request is in progress: the command is abandoned (R262). -/
  | resetDuring (cmd : Word) (din : Data)
  deriving DecidableEq, Repr

/-- The state of one instance. -/
structure State where
  /-- KEY_BITS and PATH: instance parameters, not state (R9, R10), carried here because `step` takes nothing else. No step
  changes them. Log entry 1. -/
  params : Params
  /-- KEY_VALID, one bit (R25). -/
  keyValid : Bool
  /-- W: Nb·(Nr+1) words when PATH = SW, none when PATH = HW (R26). -/
  w : List Word
  /-- RK: Nr+1 lanes when PATH = HW, none when PATH = SW (R27). -/
  rk : List Lane
  /-- DRK: Nr+1 lanes when PATH = HW, none when PATH = SW (R28). -/
  drk : List Lane
  /-- STATUS, the 8-bit code of the most recent response (R24, R240). -/
  status : Byte
  /-- DOUT, the 16 bytes of the most recent response (R24). -/
  dout : Lane
  /-- What the host has presented and the block has not yet taken, oldest first: commands take effect one at a time in this
  order (R46, R47). The model's own field. Log entry 2. -/
  inbox : List Input
  /-- How many hardware resets there have been: the model's own counter, read only to draw the free values of the schedule
  storage after a reset. Log entry 4. -/
  resets : Nat
  deriving DecidableEq, Repr

/-- Reasons to stop with a fault. There is none: "the block has no trap mechanism" (R246), a rejection is "a defined
response of the block, not a trap, a hang or undefined behaviour" (R241), and no table or schedule index leaves its range
(R137, U18). -/
inductive Fault where
  deriving DecidableEq, Repr

/-- Reasons to have no meaning. -/
inductive Refusal where
  /-- An instruction with no meaning yet, by its mnemonic. Raised by a refused arm of `exec`; no arm is refused. Safe. -/
  | notModelled (mnemonic : String)
  /-- KEY_BITS is none of 128, 192 and 256, so there is no such instance (R9, U16). Raised by `makeInstance` only, never by a
  step. Safe. -/
  | noSuchKeyBits (keyBits : Nat)
  deriving DecidableEq, Repr

/-- An instance with these parameters right after its first hardware reset: KEY_VALID = 0, STATUS = 0x00, DOUT = 16 zero
bytes (R260). The spec leaves the schedule storage unspecified; it holds zeros here. DESIGN CHOICE, log entry 3. -/
def State.fresh (p : Params) : State where
  params := p
  keyValid := false
  w := List.replicate p.wordCount 0
  rk := List.replicate p.laneCount 0
  drk := List.replicate p.laneCount 0
  status := 0
  dout := 0
  inbox := []
  resets := 0

/-- The machine right after reset. The instance is the 128-bit one on the hardware path; the spec names none as the first.
DESIGN CHOICE, log entry 1. -/
def State.reset : State := State.fresh ⟨.k128, .hw⟩

end Sys2Proof.Machine
end

