-- ==== Sys2Proof/Machine/Flags.lean ====
section
/-! DEFINITION. The block has no flags (R23). What stands in their place: the STATUS codes (R240), which commands need a
loaded key (R242), and when an argument is out of range (R244). -/

namespace Sys2Proof.Machine

/-- The STATUS codes (R240). "No other value is ever returned." -/
inductive StatusCode where
  | ok
  | errIllegal
  | errNoKey
  | errArg
  deriving DecidableEq, Repr

/-- The 8-bit value of a STATUS code (R240). -/
def StatusCode.code : StatusCode → Byte
  | .ok => 0x00
  | .errIllegal => 0x01
  | .errNoKey => 0x02
  | .errArg => 0x03

/-- RDRK's round index is out of range: r > Nr (R244). -/
def roundOutOfRange (k : KeySize) (r : Nat) : Bool := decide (k.nr < r)

/-- RDRK asks for the decryption schedule of a SW instance, which has none (R83, R244). -/
def selOutOfRange (p : Path) (sel : Sel) : Bool := p == .sw && sel == .dec

/-- KEXPT's word index is outside [Nk, 4·(Nr+1)) (R142, R244). -/
def wordIndexOutOfRange (k : KeySize) (i : Nat) : Bool := decide (i < k.nk) || decide (4 * (k.nr + 1) ≤ i)

end Sys2Proof.Machine
end

