-- ==== Sys2Proof/Machine/Operands.lean ====
section
/-! DEFINITION. Byte orders and operand forms: bytes, dwords and halves of a lane (R15), the big-endian word packing (R16),
the views of DIN (R18, R61), the placement of a short result in DOUT (R65), and the loops of R19. -/

namespace Sys2Proof.Machine

/-- Byte i of a lane, of DIN or of a key: bits [8i+7:8i] (R15, R41). -/
def byteAt {n : Nat} (v : BitVec n) (i : Nat) : Byte := v.extractLsb' (8 * i) 8

/-- `lane(A)`: the lane whose byte i is A[i] for i in [0, 16) (R15, R178). -/
def laneOfBytes (a : Nat → Byte) : Lane :=
  a 15 ++ a 14 ++ a 13 ++ a 12 ++ a 11 ++ a 10 ++ a 9 ++ a 8 ++ a 7 ++ a 6 ++ a 5 ++ a 4 ++ a 3 ++ a 2 ++ a 1 ++ a 0

/-- `dword(L, j) = L[32j+31:32j]`: bytes 4j to 4j+3 with byte 4j least significant (R15, R43). -/
def dword (l : Lane) (j : Nat) : Word := l.extractLsb' (32 * j) 32

/-- The lane whose four dwords are d0 to d3 (R15). -/
def laneOfDwords (d0 d1 d2 d3 : Word) : Lane := d3 ++ d2 ++ d1 ++ d0

/-- `low64(L) = L[63:0]` (R15). -/
def low64 (l : Lane) : Half := l.extractLsb' 0 64

/-- `high64(L) = L[127:64]` (R15). -/
def high64 (l : Lane) : Half := l.extractLsb' 64 64

/-- `lanepair(lo, hi)`: the lane with low64 = lo and high64 = hi (R178). -/
def lanepair (lo hi : Half) : Lane := hi ++ lo

/-- `pack_be(a, b, c, d)`: the first byte is the most significant (R16). -/
def packBE (a b c d : Byte) : Word := a ++ b ++ c ++ d

/-- `unpack_be(w)[j]`: byte 0 is w[31:24] and byte 3 is w[7:0] (R16). -/
def beByte (w : Word) (j : Nat) : Byte := w.extractLsb' (8 * (3 - j)) 8

/-- `for i = lo..hi: x = body(i, x)`; no iteration when lo > hi (R19). -/
def forUp {α : Type} (lo hi : Nat) (body : Nat → α → α) (x : α) : α :=
  (List.range' lo (hi + 1 - lo)).foldl (fun y i => body i y) x

/-- `for i = hi downto lo: x = body(i, x)`; no iteration when lo > hi (R19). -/
def forDown {α : Type} (hi lo : Nat) (body : Nat → α → α) (x : α) : α :=
  (List.range' lo (hi + 1 - lo)).foldr body x

/-- DIN of the request that is being executed: the one at the head of the inbox. Zero where there is none, a case no step
reads. -/
def State.din (s : State) : Data :=
  match s.inbox with
  | .request _ d :: _ => d
  | _ => 0

/-- S = DIN[0..16), the state operand (R18, R61). -/
def State.opS (s : State) : Lane := s.din.extractLsb' 0 128

/-- K = DIN[16..32), the key operand (R18, R61). -/
def State.opK (s : State) : Lane := s.din.extractLsb' 128 128

/-- KEY = DIN[0..4·Nk), the cipher key, with nothing above it (R61, R80): DIN bytes at 4·Nk and above are ignored (R64). -/
def keyOperand (k : KeySize) (din : Data) : Data := (din.extractLsb' 0 (32 * k.nk)).setWidth 256

/-- The word operand `x = pack_be(DIN[0], DIN[1], DIN[2], DIN[3])` of SUBWORD, ROTWORD and KEXPT (43_sw_key_schedule.md §3). -/
def State.opX (s : State) : Word := packBE (byteAt s.din 0) (byteAt s.din 1) (byteAt s.din 2) (byteAt s.din 3)

/-- The byte operand a = DIN[0] of XTIME and GFMUL (R220, R221). -/
def State.opA (s : State) : Byte := byteAt s.din 0

/-- The byte operand b = DIN[1] of GFMUL (R221). -/
def State.opB (s : State) : Byte := byteAt s.din 1

/-- A one-byte result at DOUT[0], every other byte zero (R65). -/
def resultByte (b : Byte) : Lane := b.setWidth 128

/-- A word result: DOUT[0..4) = unpack_be(v), every other byte zero (R65, 43_sw_key_schedule.md §3). -/
def resultWord (v : Word) : Lane := laneOfBytes fun i => if i < 4 then beByte v i else 0

end Sys2Proof.Machine
end

