-- ==== Sys2Proof/Machine/Ops.lean ====
section
/-! DEFINITION. The named operations every command ends in: `respond` and `reject` (R18, R241), the KEY_VALID guard (R242),
hardware reset (R260-R262), taking a request off the inbox (R46, R47), and making an instance (R9). The block has no memory
a command addresses (R34) and no exceptions (R246): a rejection is the one shared operation that stands where another
machine would take an exception, and there is no return from it. -/

namespace Sys2Proof.Machine

/-- `respond(v)`: STATUS = OK, DOUT = v, nothing else (R18). -/
def State.respond (s : State) (v : Lane) : State := { s with status := StatusCode.ok.code, dout := v }

/-- `reject(code)`: STATUS = code, DOUT = 16 zero bytes, no other state (R18, R241). -/
def State.reject (s : State) (c : StatusCode) : State := { s with status := c.code, dout := 0 }

/-- `if KEY_VALID = 0: reject(ERR_NOKEY)`, before anything else the command does (R242, R243). -/
def State.needKey (s : State) (run : Host.Outcome State Fault Refusal) : Host.Outcome State Fault Refusal :=
  if s.keyValid then run else .next (s.reject .errNoKey)

/-- Hardware reset: KEY_VALID = 0, STATUS = 0x00, DOUT = 0; the parameters stay; the schedule storage holds free values,
neither erased nor kept (R260, R261). Log entry 4. -/
def State.hardReset (s : State) : State :=
  { s with
    keyValid := false
    w := s.w.mapIdx (Config.wAfterReset s.resets)
    rk := s.rk.mapIdx (Config.rkAfterReset s.resets)
    drk := s.drk.mapIdx (Config.drkAfterReset s.resets)
    status := 0
    dout := 0
    resets := s.resets + 1 }

/-- The response to a request is out, so the request leaves the inbox: it "is not stored after it executes" (R51), and the
block takes the next one only now (R46). -/
def retire (rest : List Input) : Host.Outcome State Fault Refusal → Host.Outcome State Fault Refusal
  | .next t => .next { t with inbox := rest }
  | .fault r => .fault r
  | .refused r => .refused r

/-- An instance for a KEY_BITS value and a PATH, right after reset; any KEY_BITS but 128, 192 and 256 is refused (R9, U16). -/
def makeInstance (keyBits : Nat) (path : Path) : Host.Outcome State Fault Refusal :=
  match KeySize.ofBits keyBits with
  | some k => .next (State.fresh ⟨k, path⟩)
  | none => .refused (.noSuchKeyBits keyBits)

end Sys2Proof.Machine
end

