-- ==== Sys2Proof/Machine/Gf.lean ====
section
/-! DEFINITION. GF(2⁸) arithmetic (R212, R213) and its commands XTIME and GFMUL (R220, R221). -/

namespace Sys2Proof.Machine

/-- Multiplication by 2: left shift by 1, then XOR 0x1B iff the bit shifted out was set (R212). -/
def xtime (n : Byte) : Byte := (n <<< 1) ^^^ (if n.getLsbD 7 then 0x1B else 0x00)

/-- One turn of gf_mul's loop on (r, a): test bit k of b, then double a (R213). -/
def gfMulTurn (b : Byte) (k : Nat) (ra : Byte × Byte) : Byte × Byte :=
  (if b.getLsbD k then ra.1 ^^^ ra.2 else ra.1, xtime ra.2)

/-- `gf_mul(a, b)`: bit positions of b from the least significant (R213, C11). -/
def gfMul (a b : Byte) : Byte := (forUp 0 7 (gfMulTurn b) (0, a)).1

/-- XTIME: `respond(xtime(a) ++ 15 zero bytes)` (R220). -/
def execXtime (s : State) : Host.Outcome State Fault Refusal := .next (s.respond (resultByte (xtime s.opA)))

/-- GFMUL: `respond(gf_mul(a, b) ++ 15 zero bytes)` (R221). -/
def execGfmul (s : State) : Host.Outcome State Fault Refusal := .next (s.respond (resultByte (gfMul s.opA s.opB)))

end Sys2Proof.Machine
end

