-- ==== Sys2Proof/Machine/SwRound.lean ====
section
/-! DEFINITION. The software-path round transforms (R100-R106), the software cipher and inverse cipher (R120, R121), and the
commands that expose each transform (R110-R116). -/

namespace Sys2Proof.Machine

/-- SubBytes (R100). -/
def subBytes (s : Lane) : Lane := laneOfBytes fun i => sbox (byteAt s i)

/-- InvSubBytes (R101). -/
def invSubBytes (s : Lane) : Lane := laneOfBytes fun i => invSbox (byteAt s i)

/-- The permutation SR (R102). -/
def srTable : List Nat := [0, 5, 10, 15, 4, 9, 14, 3, 8, 13, 2, 7, 12, 1, 6, 11]

/-- The permutation ISR (R103). -/
def isrTable : List Nat := [0, 13, 10, 7, 4, 1, 14, 11, 8, 5, 2, 15, 12, 9, 6, 3]

/-- ShiftRows: output byte i is input byte SR[i] (R102, C12). -/
def shiftRows (s : Lane) : Lane := laneOfBytes fun i => byteAt s (srTable.getD i 0)

/-- InvShiftRows: output byte i is input byte ISR[i] (R103). -/
def invShiftRows (s : Lane) : Lane := laneOfBytes fun i => byteAt s (isrTable.getD i 0)

/-- Byte r of MixColumns of the column (a, b, c, d) (R104). -/
def mixByte (a b c d : Byte) : Nat → Byte
  | 0 => gfMul 0x02 a ^^^ gfMul 0x03 b ^^^ c ^^^ d
  | 1 => a ^^^ gfMul 0x02 b ^^^ gfMul 0x03 c ^^^ d
  | 2 => a ^^^ b ^^^ gfMul 0x02 c ^^^ gfMul 0x03 d
  | _ => gfMul 0x03 a ^^^ b ^^^ c ^^^ gfMul 0x02 d

/-- Byte r of InvMixColumns of the column (a, b, c, d) (R105). -/
def invMixByte (a b c d : Byte) : Nat → Byte
  | 0 => gfMul 0x0e a ^^^ gfMul 0x0b b ^^^ gfMul 0x0d c ^^^ gfMul 0x09 d
  | 1 => gfMul 0x09 a ^^^ gfMul 0x0e b ^^^ gfMul 0x0b c ^^^ gfMul 0x0d d
  | 2 => gfMul 0x0d a ^^^ gfMul 0x09 b ^^^ gfMul 0x0e c ^^^ gfMul 0x0b d
  | _ => gfMul 0x0b a ^^^ gfMul 0x0d b ^^^ gfMul 0x09 c ^^^ gfMul 0x0e d

/-- Apply `f` to each of the four columns `col(s, c)`, byte r of the result at 4c + r (R17, R104, R105). -/
def onColumns (f : Byte → Byte → Byte → Byte → Nat → Byte) (s : Lane) : Lane :=
  laneOfBytes fun i =>
    f (byteAt s (4 * (i / 4))) (byteAt s (4 * (i / 4) + 1)) (byteAt s (4 * (i / 4) + 2)) (byteAt s (4 * (i / 4) + 3)) (i % 4)

/-- MixColumns (R104). -/
def mixColumns (s : Lane) : Lane := onColumns mixByte s

/-- InvMixColumns (R105). -/
def invMixColumns (s : Lane) : Lane := onColumns invMixByte s

/-- AddRoundKeyW: column c is XORed with W[n + c], the word's most significant byte into row 0 (R106). -/
def addRoundKeyW (s : Lane) (w : List Word) (n : Nat) : Lane :=
  laneOfBytes fun i => byteAt s i ^^^ beByte (w.getD (n + i / 4) 0) (i % 4)

/-- Round r of SwCipher, 1 ≤ r ≤ Nr−1 (R120). -/
def swRound (w : List Word) (r : Nat) (s : Lane) : Lane :=
  addRoundKeyW (mixColumns (shiftRows (subBytes s))) w (4 * r)

/-- SwCipher (R120). -/
def swCipher (nr : Nat) (b : Lane) (w : List Word) : Lane :=
  addRoundKeyW (shiftRows (subBytes (forUp 1 (nr - 1) (swRound w) (addRoundKeyW b w 0)))) w (4 * nr)

/-- Round r of SwInvCipher: InvMixColumns after AddRoundKey (R121). -/
def swInvRound (w : List Word) (r : Nat) (s : Lane) : Lane :=
  invMixColumns (addRoundKeyW (invSubBytes (invShiftRows s)) w (4 * r))

/-- SwInvCipher (R121). -/
def swInvCipher (nr : Nat) (b : Lane) (w : List Word) : Lane :=
  addRoundKeyW (invSubBytes (invShiftRows (forDown (nr - 1) 1 (swInvRound w) (addRoundKeyW b w (4 * nr))))) w 0

/-- SUBBYTES: `respond(SubBytes(S))` (R110). -/
def execSubbytes (s : State) : Host.Outcome State Fault Refusal := .next (s.respond (subBytes s.opS))

/-- INVSUBBYTES: `respond(InvSubBytes(S))` (R111). -/
def execInvsubbytes (s : State) : Host.Outcome State Fault Refusal := .next (s.respond (invSubBytes s.opS))

/-- SHIFTROWS: `respond(ShiftRows(S))` (R112). -/
def execShiftrows (s : State) : Host.Outcome State Fault Refusal := .next (s.respond (shiftRows s.opS))

/-- INVSHIFTROWS: `respond(InvShiftRows(S))` (R113). -/
def execInvshiftrows (s : State) : Host.Outcome State Fault Refusal := .next (s.respond (invShiftRows s.opS))

/-- MIXCOLUMNS: `respond(MixColumns(S))` (R114). -/
def execMixcolumns (s : State) : Host.Outcome State Fault Refusal := .next (s.respond (mixColumns s.opS))

/-- INVMIXCOLUMNS: `respond(InvMixColumns(S))` (R115). -/
def execInvmixcolumns (s : State) : Host.Outcome State Fault Refusal := .next (s.respond (invMixColumns s.opS))

/-- ADDROUNDKEY: `respond(S[i] ⊕ K[i] for i in [0, 16))` (R116). -/
def execAddroundkey (s : State) : Host.Outcome State Fault Refusal := .next (s.respond (s.opS ^^^ s.opK))

end Sys2Proof.Machine
end

