-- ==== Sys2Proof/Machine/HwRound.lean ====
section
/-! DEFINITION. The hardware-path operations (R150-R156), the hardware cipher and inverse cipher (R170, R171), and their
commands (R160-R165). A lane and a state correspond byte for byte (R15, R17). -/

namespace Sys2Proof.Machine

/-- AESENC, one full forward round (R150). -/
def aesenc (s rk : Lane) : Lane := mixColumns (shiftRows (subBytes s)) ^^^ rk

/-- AESENCLAST, the final forward round (R151). -/
def aesenclast (s rk : Lane) : Lane := shiftRows (subBytes s) ^^^ rk

/-- AESDEC: InvShiftRows, InvSubBytes, InvMixColumns, then the XOR (R152). -/
def aesdec (s rk : Lane) : Lane := invMixColumns (invSubBytes (invShiftRows s)) ^^^ rk

/-- AESDECLAST, the final inverse round (R153, D16). DESIGN CHOICE, log entry 15: R163's corner case says
`AESDECLAST(AESENCLAST(s, k), k) = s` for every s and k, which is false of R151 and R153 (it would need the XOR with k to come
before InvShiftRows); no entry of 90_conflicts.md rules on it, and this follows the definition. -/
def aesdeclast (s rk : Lane) : Lane := invSubBytes (invShiftRows s) ^^^ rk

/-- AESIMC (R154). -/
def aesimc (x : Lane) : Lane := invMixColumns x

/-- SubWordL: sbox on each of a dword's four bytes in place (R155). -/
def subWordL (d : Word) : Word := sbox (byteAt d 3) ++ sbox (byteAt d 2) ++ sbox (byteAt d 1) ++ sbox (byteAt d 0)

/-- RotWordL: `((d >> 8) | (d << 24))[31:0]` (R155). -/
def rotWordL (d : Word) : Word := (d >>> 8) ||| (d <<< 24)

/-- AESKEYGENASSIST (R156). -/
def aeskeygenassist (x : Lane) (imm8 : Byte) : Lane :=
  laneOfDwords (subWordL (dword x 1)) (rotWordL (subWordL (dword x 1)) ^^^ imm8.setWidth 32)
    (subWordL (dword x 3)) (rotWordL (subWordL (dword x 3)) ^^^ imm8.setWidth 32)

/-- HwCipher (R170). -/
def hwCipher (nr : Nat) (b : Lane) (rk : List Lane) : Lane :=
  aesenclast (forUp 1 (nr - 1) (fun i s => aesenc s (rk.getD i 0)) (b ^^^ rk.getD 0 0)) (rk.getD nr 0)

/-- HwInvCipher (R171). -/
def hwInvCipher (nr : Nat) (b : Lane) (drk : List Lane) : Lane :=
  aesdeclast (forUp 1 (nr - 1) (fun i s => aesdec s (drk.getD i 0)) (b ^^^ drk.getD 0 0)) (drk.getD nr 0)

/-- AESENC: `respond(AESENC(S, K))` (R160). -/
def execAesenc (s : State) : Host.Outcome State Fault Refusal := .next (s.respond (aesenc s.opS s.opK))

/-- AESENCLAST: `respond(AESENCLAST(S, K))` (R161). -/
def execAesenclast (s : State) : Host.Outcome State Fault Refusal := .next (s.respond (aesenclast s.opS s.opK))

/-- AESDEC: `respond(AESDEC(S, K))` (R162). -/
def execAesdec (s : State) : Host.Outcome State Fault Refusal := .next (s.respond (aesdec s.opS s.opK))

/-- AESDECLAST: `respond(AESDECLAST(S, K))`, the pseudocode of R163 and not its round-trip sentence (log entry 15). -/
def execAesdeclast (s : State) : Host.Outcome State Fault Refusal := .next (s.respond (aesdeclast s.opS s.opK))

/-- AESIMC: `respond(AESIMC(S))` (R164). -/
def execAesimc (s : State) : Host.Outcome State Fault Refusal := .next (s.respond (aesimc s.opS))

/-- AESKEYGENASSIST: `respond(AESKEYGENASSIST(S, CMD.IMM8))` (R165). -/
def execAeskeygenassist (imm8 : Byte) (s : State) : Host.Outcome State Fault Refusal :=
  .next (s.respond (aeskeygenassist s.opS imm8))

end Sys2Proof.Machine
end

