-- ==== Sys2Proof/Machine/SwKeySchedule.lean ====
section
/-! DEFINITION. The software-path key schedule (R130-R136), the layout of a word schedule into lanes (R192), and the commands
SUBWORD, ROTWORD and KEXPT (R140-R142). -/

namespace Sys2Proof.Machine

/-- SubWord (R130). -/
def subWord (x : Word) : Word := packBE (sbox (beByte x 0)) (sbox (beByte x 1)) (sbox (beByte x 2)) (sbox (beByte x 3))

/-- RotWord: `((x << 8) | (x >> 24))[31:0]` (R131). -/
def rotWord (x : Word) : Word := (x <<< 8) ||| (x >>> 24)

/-- RconWord: `zext_32(Rcon[j]) << 24` (R132). -/
def rconWord (j : Nat) : Word := (rcon j).setWidth 32 <<< 24

/-- The word transform T(x, i) (R134). -/
def wordT (nk : Nat) (x : Word) (i : Nat) : Word :=
  if i % nk = 0 then subWord (rotWord x) ^^^ rconWord (i / nk)
  else if 6 < nk ∧ i % nk = 4 then subWord x
  else x

/-- The first Nk words: `W[i] = pack_be(KEY[4i], KEY[4i+1], KEY[4i+2], KEY[4i+3])` (R133, R136). -/
def keyWords (nk : Nat) (key : Data) : List Word :=
  (List.range nk).map fun i =>
    packBE (byteAt key (4 * i)) (byteAt key (4 * i + 1)) (byteAt key (4 * i + 2)) (byteAt key (4 * i + 3))

/-- `W[i] = W[i−Nk] ⊕ T(W[i−1], i)`, appended to the words before it (R133). -/
def expandWord (nk i : Nat) (w : List Word) : List Word :=
  w ++ [w.getD (i - nk) 0 ^^^ wordT nk (w.getD (i - 1) 0) i]

/-- KeyExpansion: 4·(Nr+1) words (R133). -/
def keyExpansion (nk nr : Nat) (key : Data) : List Word :=
  forUp nk (4 * (nr + 1) - 1) (expandWord nk) (keyWords nk key)

/-- LaneOf(W, r): byte 4c + j is `unpack_be(W[4r + c])[j]` (R192). -/
def laneOf (w : List Word) (r : Nat) : Lane := laneOfBytes fun i => beByte (w.getD (4 * r + i / 4) 0) (i % 4)

/-- SUBWORD: `respond(unpack_be(SubWord(x)) ++ 12 zero bytes)` (R140). -/
def execSubword (s : State) : Host.Outcome State Fault Refusal := .next (s.respond (resultWord (subWord s.opX)))

/-- ROTWORD: `respond(unpack_be(RotWord(x)) ++ 12 zero bytes)` (R141). -/
def execRotword (s : State) : Host.Outcome State Fault Refusal := .next (s.respond (resultWord (rotWord s.opX)))

/-- KEXPT: T(x, i) for this instance's Nk, and ERR_ARG outside [Nk, 4·(Nr+1)) (R142). -/
def execKexpt (i : Nat) (s : State) : Host.Outcome State Fault Refusal :=
  if wordIndexOutOfRange s.params.keySize i then .next (s.reject .errArg)
  else .next (s.respond (resultWord (wordT s.params.keySize.nk s.opX i)))

end Sys2Proof.Machine
end

