-- ==== Sys2Proof/Machine/HwKeySchedule.lean ====
section
/-! DEFINITION. The hardware-path key schedule: the lane operations (R178, R179), the three expansions (R180-R187), the
decryption schedule (R190) and the generic fallback (R191). SETKEY on a HW instance runs them (R80). -/

namespace Sys2Proof.Machine

/-- `sll_bytes(x, n)`: byte i moves to byte i + n and the low n bytes become zero (R178). -/
def sllBytes (x : Lane) (n : Nat) : Lane := x <<< (8 * n)

/-- `bcast32(x, j)`: four copies of dword(x, j) (R178). -/
def bcast32 (x : Lane) (j : Nat) : Lane := laneOfDwords (dword x j) (dword x j) (dword x j) (dword x j)

/-- Prefix(x) (R179). -/
def prefixXor (x : Lane) : Lane :=
  let y := x ^^^ sllBytes x 4
  y ^^^ sllBytes y 8

/-- One turn of Expand128: RK[j+1] from RK[j] (R181). -/
def expand128Turn (j : Nat) (rk : List Lane) : List Lane :=
  rk ++ [prefixXor (rk.getD j 0) ^^^ bcast32 (aeskeygenassist (rk.getD j 0) (rcon (j + 1))) 3]

/-- Expand128, 11 lanes (R181). -/
def expand128 (key : Data) : List Lane := forUp 0 9 expand128Turn [key.extractLsb' 0 128]

/-- The working values of Expand192: the partial RK and the two-lane rolling state (s0, s1) (R183). They live only while
SETKEY executes (R32). -/
structure Rolling where
  rk : List Lane
  s0 : Lane
  s1 : Lane

/-- The rolling-state update of iteration n (R183). -/
def rollingTurn (n : Nat) (q : Rolling) : Rolling :=
  let a := aeskeygenassist q.s1 (rcon n)
  let s0 := prefixXor q.s0 ^^^ bcast32 a 1
  let s1 := q.s1 ^^^ sllBytes q.s1 4
  { q with s0 := s0, s1 := s1 ^^^ bcast32 s0 3 }

/-- Where iteration n writes: final, merge or direct (R185, C4, C5). -/
def rollingWrite (n : Nat) (q : Rolling) : Rolling :=
  if n = 8 then { q with rk := q.rk.set 12 q.s0 }
  else if n % 2 = 1 then
    let k := 1 + 3 * (n - 1) / 2
    { q with
      rk := (q.rk.set k (lanepair (low64 (q.rk.getD k 0)) (low64 q.s0))).set (k + 1) (lanepair (high64 q.s0) (low64 q.s1)) }
  else
    let k := 3 * n / 2
    { q with rk := (q.rk.set k q.s0).set (k + 1) q.s1 }

/-- Expand192 with `hi` as the high 64 bits of the initial w[1], a value no finished entry depends on (R33, R184). -/
def expand192With (hi : Half) (key : Data) : List Lane :=
  let rk0 : Lane := key.extractLsb' 0 128
  let rk1 := lanepair (key.extractLsb' 128 64) hi
  (forUp 1 8 (fun n q => rollingWrite n (rollingTurn n q)) ⟨rk0 :: rk1 :: List.replicate 11 0, rk0, rk1⟩).rk

/-- Expand192, 13 lanes; the high 64 bits of the initial w[1] are zero (R183-R185). -/
def expand192 (key : Data) : List Lane := expand192With 0 key

/-- One turn of Expand256: RK[k] from RK[k−1] and RK[k−2]; `imm` is the trailing step's immediate (R186, R187). -/
def expand256Turn (imm : Byte) (k : Nat) (rk : List Lane) : List Lane :=
  let a := if k % 2 = 0 then bcast32 (aeskeygenassist (rk.getD (k - 1) 0) (rcon (k / 2))) 3
    else bcast32 (aeskeygenassist (rk.getD (k - 1) 0) imm) 2
  rk ++ [prefixXor (rk.getD (k - 2) 0) ^^^ a]

/-- Expand256 with `imm` as the immediate of the trailing steps, a value no entry depends on (R187). -/
def expand256With (imm : Byte) (key : Data) : List Lane :=
  forUp 2 14 (expand256Turn imm) [key.extractLsb' 0 128, key.extractLsb' 128 128]

/-- Expand256, 15 lanes; the trailing steps use 0x00 (R186). -/
def expand256 (key : Data) : List Lane := expand256With 0x00 key

/-- HwExpand: one expansion per key size (R180). -/
def hwExpand : KeySize → Data → List Lane
  | .k128, key => expand128 key
  | .k192, key => expand192 key
  | .k256, key => expand256 key

/-- DeriveInverse: DRK[0] = RK[Nr], DRK[Nr] = RK[0], DRK[Nr−i] = AESIMC(RK[i]) for 1 ≤ i ≤ Nr−1 (R190, C1). -/
def deriveInverse (nr : Nat) (rk : List Lane) : List Lane :=
  forUp 1 (nr - 1) (fun i drk => drk.set (nr - i) (aesimc (rk.getD i 0)))
    (((List.replicate (nr + 1) 0).set 0 (rk.getD nr 0)).set nr (rk.getD 0 0))

/-- The generic fallback: the software rule laid into lanes (R191). No instance selects it (R12, R180). -/
def fallbackExpand (nk nr : Nat) (key : Data) : List Lane :=
  (List.range (nr + 1)).map (laneOf (keyExpansion nk nr key))

end Sys2Proof.Machine
end

