-- ==== Sys2Proof/Machine/Facade.lean ====
section
/-! DEFINITION. The facade commands SETKEY, ENCRYPT, DECRYPT and RDRK (R80-R83). -/

namespace Sys2Proof.Machine

/-- SETKEY: build the whole schedule from KEY = DIN[0..4·Nk), set KEY_VALID, return 16 zero bytes (R80). On the hardware path
DRK is built in the same step (R269). -/
def execSetkey (s : State) : Host.Outcome State Fault Refusal :=
  let k := s.params.keySize
  let key := keyOperand k s.din
  match s.params.path with
  | .sw => .next ({ s with w := keyExpansion k.nk k.nr key, keyValid := true }.respond 0)
  | .hw =>
    let rk := hwExpand k key
    .next ({ s with rk := rk, drk := deriveInverse k.nr rk, keyValid := true }.respond 0)

/-- ENCRYPT (R81). -/
def execEncrypt (s : State) : Host.Outcome State Fault Refusal :=
  s.needKey <|
    match s.params.path with
    | .sw => .next (s.respond (swCipher s.params.keySize.nr s.opS s.w))
    | .hw => .next (s.respond (hwCipher s.params.keySize.nr s.opS s.rk))

/-- DECRYPT: the software path reads W, the hardware path DRK (R82). -/
def execDecrypt (s : State) : Host.Outcome State Fault Refusal :=
  s.needKey <|
    match s.params.path with
    | .sw => .next (s.respond (swInvCipher s.params.keySize.nr s.opS s.w))
    | .hw => .next (s.respond (hwInvCipher s.params.keySize.nr s.opS s.drk))

/-- RDRK r, sel: ERR_NOKEY, then ERR_ARG, then one round key (R83, R243). -/
def execRdrk (r : Nat) (sel : Sel) (s : State) : Host.Outcome State Fault Refusal :=
  s.needKey <|
    if roundOutOfRange s.params.keySize r then .next (s.reject .errArg)
    else if selOutOfRange s.params.path sel then .next (s.reject .errArg)
    else
      match s.params.path with
      | .sw => .next (s.respond (laneOf s.w r))
      | .hw =>
        match sel with
        | .fwd => .next (s.respond (s.rk.getD r 0))
        | .dec => .next (s.respond (s.drk.getD r 0))

end Sys2Proof.Machine
end

