-- ==== Sys2Proof/Machine/Dispatch.lean ====
section
/-! DEFINITION. What each command does: one arm per constructor, each one call of its meaning. -/

namespace Sys2Proof.Machine

def exec (i : Instr) (s : State) : Host.Outcome State Fault Refusal :=
  match i with
  -- facade (41_facade.md)
  | .setkey => Sys2Proof.Machine.execSetkey s
  | .encrypt => Sys2Proof.Machine.execEncrypt s
  | .decrypt => Sys2Proof.Machine.execDecrypt s
  | .rdrk r sel => Sys2Proof.Machine.execRdrk r sel s
  -- software round primitives (42_sw_round.md)
  | .subbytes => Sys2Proof.Machine.execSubbytes s
  | .invsubbytes => Sys2Proof.Machine.execInvsubbytes s
  | .shiftrows => Sys2Proof.Machine.execShiftrows s
  | .invshiftrows => Sys2Proof.Machine.execInvshiftrows s
  | .mixcolumns => Sys2Proof.Machine.execMixcolumns s
  | .invmixcolumns => Sys2Proof.Machine.execInvmixcolumns s
  | .addroundkey => Sys2Proof.Machine.execAddroundkey s
  -- hardware round operations (44_hw_round.md)
  | .aesenc => Sys2Proof.Machine.execAesenc s
  | .aesenclast => Sys2Proof.Machine.execAesenclast s
  | .aesdec => Sys2Proof.Machine.execAesdec s
  | .aesdeclast => Sys2Proof.Machine.execAesdeclast s
  | .aesimc => Sys2Proof.Machine.execAesimc s
  | .aeskeygenassist imm8 => Sys2Proof.Machine.execAeskeygenassist imm8 s
  -- GF(2^8) and key words (46_tables_gf.md, 43_sw_key_schedule.md)
  | .xtime => Sys2Proof.Machine.execXtime s
  | .gfmul => Sys2Proof.Machine.execGfmul s
  | .subword => Sys2Proof.Machine.execSubword s
  | .rotword => Sys2Proof.Machine.execRotword s
  | .kexpt idx => Sys2Proof.Machine.execKexpt idx s

end Sys2Proof.Machine
end

