-- ==== Sys2Proof/Machine/Step.lean ====
section
/-! DEFINITION. One step of the block (R47, R48), and one transaction of its host. -/

namespace Sys2Proof.Machine

/-- One step. With nothing presented the block is idle and keeps all its state (R254). A reset, also one that abandons a
command, gives the reset state (R260, R262). A request is read whole, decoded and checked, executed, and answered; a word
that is not legal is rejected with ERR_ILLEGAL (R48, R63, R243). -/
def step (s : State) : Host.Outcome State Fault Refusal :=
  match s.inbox with
  | [] => .next s
  | .reset :: rest => retire rest (.next s.hardReset)
  | .resetDuring _ _ :: rest => retire rest (.next s.hardReset)
  | .request cmd _ :: rest =>
    match decode cmd with
    | .ok i => retire rest (exec i s)
    | .error _ => retire rest (.next (s.reject .errIllegal))

/-- `s` with a request whose CMD is this word of the opcode table put before everything else the host has presented, so that
the next step takes exactly it. DIN is 32 zero bytes. Log entry 2. -/
def State.withFetchWord (s : State) (nbits w : Nat) : State :=
  { s with inbox := .request (BitVec.ofNat 32 (w % 2 ^ nbits)) 0 :: s.inbox }

/-- One transaction, "one atomic step from (state, request) to (state, response)" (D1): the host presents a request before
everything else and the block takes it. Log entry 2. -/
def issue (s : State) (cmd : Word) (din : Data) : Host.Outcome State Fault Refusal :=
  step { s with inbox := .request cmd din :: s.inbox }

end Sys2Proof.Machine
end

