-- ==== Sys2Proof/Machine/Assembler.lean ====
section
/-! DEFINITION. The assembler of R69: one line of text, a command with its operands, to one request. The block never sees
this text; the host uses it to write a program. A line R69 gives no form for assembles to nothing. Log entry 6. -/

namespace Sys2Proof.Machine

/-- The line up to a comment. -/
def uncomment (line : List Char) : List Char := line.takeWhile (· ≠ ';')

/-- The words of a line: what blanks and commas separate; `cur` is the word read so far, last character first. -/
def wordsFrom : List Char → List Char → List (List Char)
  | [], cur => if cur.isEmpty then [] else [cur.reverse]
  | c :: cs, cur =>
    if c = ' ' ∨ c = ',' ∨ c = '\t' then
      if cur.isEmpty then wordsFrom cs [] else cur.reverse :: wordsFrom cs []
    else wordsFrom cs (c :: cur)

/-- The value of a hex digit. -/
def hexDigit (c : Char) : Option Nat :=
  if '0' ≤ c ∧ c ≤ '9' then some (c.toNat - '0'.toNat)
  else if 'a' ≤ c ∧ c ≤ 'f' then some (c.toNat - 'a'.toNat + 10)
  else if 'A' ≤ c ∧ c ≤ 'F' then some (c.toNat - 'A'.toNat + 10)
  else none

/-- A hex string: two digits a byte, byte 0 first (R14). -/
def hexBytes : List Char → Option (List Byte)
  | [] => some []
  | [_] => none
  | a :: b :: cs => do
    let x ← hexDigit a
    let y ← hexDigit b
    let bs ← hexBytes cs
    return BitVec.ofNat 8 (16 * x + y) :: bs

/-- The digits of a number in a base, most significant first. -/
def digitsValue (base : Nat) : List Char → Nat → Option Nat
  | [], acc => some acc
  | c :: cs, acc => do
    let d ← hexDigit c
    if d < base then digitsValue base cs (base * acc + d) else none

/-- An immediate, decimal or `0x` (R69), that fits IMM8 (R66). -/
def immediate (word : List Char) : Option Nat := do
  let v ← match word with
    | '0' :: 'x' :: d :: ds => digitsValue 16 (d :: ds) 0
    | d :: ds => digitsValue 10 (d :: ds) 0
    | [] => none
  if v < 256 then some v else none

/-- Bytes placed in DIN from byte `off` upward, every other byte zero (R69). -/
def placeBytes (off : Nat) : List Byte → Data
  | [] => 0
  | b :: bs => (b.setWidth 256 <<< (8 * off)) ||| placeBytes (off + 1) bs

/-- The operand `<name>=<hex>` of a field of `size` bytes at DIN[off]. "A hex operand shorter than its field fills the
field's first bytes" (R69). -/
def fieldOperand (name : String) (off size : Nat) (word : List Char) : Option Data :=
  let lead := name.toList ++ ['=']
  if word.take lead.length = lead then
    match hexBytes (word.drop lead.length) with
    | some bs => if 0 < bs.length ∧ bs.length ≤ size then some (placeBytes off bs) else none
    | none => none
  else none

/-- The commands of R69 with the one operand `s=<hex16>`. -/
def stateCommands : List (String × Instr) :=
  [("SUBBYTES", .subbytes), ("INVSUBBYTES", .invsubbytes), ("SHIFTROWS", .shiftrows), ("INVSHIFTROWS", .invshiftrows),
   ("MIXCOLUMNS", .mixcolumns), ("INVMIXCOLUMNS", .invmixcolumns), ("AESIMC", .aesimc)]

/-- The commands of R69 with the operands `s=<hex16>, k=<hex16>`. -/
def stateKeyCommands : List (String × Instr) :=
  [("ADDROUNDKEY", .addroundkey), ("AESENC", .aesenc), ("AESENCLAST", .aesenclast), ("AESDEC", .aesdec),
   ("AESDECLAST", .aesdeclast)]

/-- The command a table gives a mnemonic. -/
def commandNamed (table : List (String × Instr)) (m : List Char) : Option Instr :=
  (table.find? fun row => row.1.toList = m).map Prod.snd

/-- A line's words as a command and its DIN (R69). -/
def assembleWords (k : KeySize) : List (List Char) → Option (Instr × Data)
  | [m, a] =>
    if m = "SETKEY".toList then (fieldOperand "key" 0 (4 * k.nk) a).map fun d => (.setkey, d)
    else if m = "ENCRYPT".toList then (fieldOperand "blk" 0 16 a).map fun d => (.encrypt, d)
    else if m = "DECRYPT".toList then (fieldOperand "blk" 0 16 a).map fun d => (.decrypt, d)
    else if m = "XTIME".toList then (fieldOperand "a" 0 1 a).map fun d => (.xtime, d)
    else if m = "SUBWORD".toList then (fieldOperand "x" 0 4 a).map fun d => (.subword, d)
    else if m = "ROTWORD".toList then (fieldOperand "x" 0 4 a).map fun d => (.rotword, d)
    else do
      let i ← commandNamed stateCommands m
      let d ← fieldOperand "s" 0 16 a
      return (i, d)
  | [m, a, b] =>
    if m = "RDRK".toList then do
      let r ← immediate a
      if b = "fwd".toList then return (.rdrk r .fwd, 0)
      else if b = "dec".toList then return (.rdrk r .dec, 0)
      else none
    else if m = "AESKEYGENASSIST".toList then do
      let d ← fieldOperand "s" 0 16 a
      let imm8 ← immediate b
      return (.aeskeygenassist (BitVec.ofNat 8 imm8), d)
    else if m = "GFMUL".toList then do
      let x ← fieldOperand "a" 0 1 a
      let y ← fieldOperand "b" 1 1 b
      return (.gfmul, x ||| y)
    else if m = "KEXPT".toList then do
      let d ← fieldOperand "x" 0 4 a
      let i ← immediate b
      return (.kexpt i, d)
    else do
      let i ← commandNamed stateKeyCommands m
      let s ← fieldOperand "s" 0 16 a
      let key ← fieldOperand "k" 16 16 b
      return (i, s ||| key)
  | _ => none

/-- A line of text as a request to an instance with this KEY_BITS (R69). -/
def assemble (k : KeySize) (line : String) : Option Input :=
  (assembleWords k (wordsFrom (uncomment line.toList) [])).map fun (i, din) => .request (encode i) din

end Sys2Proof.Machine
end

