-- ==== Sys2Proof/Machine/System.lean ====
section
/-! DEFINITION. Several instances beside each other (R252): each has its own KEY_BITS, PATH and state, and they share only
the constant tables, which no step writes. -/

namespace Sys2Proof.Machine

/-- Instance `n` of a system takes one step; the others do nothing (R252). A number that names no instance changes nothing. -/
def stepInstance (n : Nat) (sys : List State) : Host.Outcome (List State) Fault Refusal :=
  match sys[n]? with
  | none => .next sys
  | some s =>
    match step s with
    | .next t => .next (sys.set n t)
    | .fault r => .fault r
    | .refused r => .refused r

end Sys2Proof.Machine
end

