-- ==== Sys2Proof/Safety.lean ====
section
/-! DEFINITION. What holds of every state a run can reach (`State.Inv`), what a host can see of a state (`State.SameToHost`),
and what a safe run is. -/

namespace Sys2Proof.Machine

/-- The schedule storage has the shape of the instance: W exists when PATH = SW only, RK and DRK when PATH = HW only, each
with the length KEY_BITS fixes (R11, R26-R28). -/
abbrev State.ShapeOk (s : State) : Prop :=
  s.w.length = s.params.wordCount ∧ s.rk.length = s.params.laneCount ∧ s.drk.length = s.params.laneCount

/-- STATUS holds one of the four codes of R240, and a response with another status than OK has DOUT = 0 (R241). -/
abbrev State.ResponseOk (s : State) : Prop :=
  (s.status = 0x00 ∨ s.status = 0x01 ∨ s.status = 0x02 ∨ s.status = 0x03) ∧ (s.status ≠ 0x00 → s.dout = 0)

/-- The schedule is the one of the key in DIN[0..4·Nk) (R30): `W = KeyExpansion(K)` on the software path, `RK = HwExpand(K)`
and `DRK = DeriveInverse(RK)` on the hardware path. -/
def State.ScheduleOf (s : State) (din : Data) : Prop :=
  match s.params.path with
  | .sw => s.w = keyExpansion s.params.keySize.nk s.params.keySize.nr (keyOperand s.params.keySize din)
  | .hw =>
    s.rk = hwExpand s.params.keySize (keyOperand s.params.keySize din) ∧ s.drk = deriveInverse s.params.keySize.nr s.rk

/-- "While KEY_VALID = 1, the schedule is a function of the key K given to the most recent SETKEY" (R30). -/
def State.KeyedOk (s : State) : Prop := s.keyValid = true → ∃ din : Data, s.ScheduleOf din

/-- What every step keeps. -/
structure State.Inv (s : State) : Prop where
  shape : s.ShapeOk
  response : s.ResponseOk
  keyed : s.KeyedOk

/-- Two states a host cannot tell apart: they differ at most in schedule storage that is not valid, in arrays that the PATH
does not have, and in the model's own reset counter (R260, R261). -/
structure State.SameToHost (s t : State) : Prop where
  params : s.params = t.params
  keyValid : s.keyValid = t.keyValid
  status : s.status = t.status
  dout : s.dout = t.dout
  inbox : s.inbox = t.inbox
  w : s.keyValid = true → s.params.path = .sw → s.w = t.w
  rk : s.keyValid = true → s.params.path = .hw → s.rk = t.rk
  drk : s.keyValid = true → s.params.path = .hw → s.drk = t.drk

/-- The parameters, KEY_VALID and the schedule storage are the same: what every command but SETKEY leaves alone (R29), and
what a rejection leaves alone (R241). -/
structure State.SameSchedule (s t : State) : Prop where
  params : s.params = t.params
  keyValid : s.keyValid = t.keyValid
  w : s.w = t.w
  rk : s.rk = t.rk
  drk : s.drk = t.drk

/-- How many bytes of DIN a command reads, from DIN[0] upward: the column "DIN used" of R62. -/
def dinUsed (k : KeySize) : Instr → Nat
  | .setkey => 4 * k.nk
  | .encrypt => 16
  | .decrypt => 16
  | .rdrk _ _ => 0
  | .subbytes => 16
  | .invsubbytes => 16
  | .shiftrows => 16
  | .invshiftrows => 16
  | .mixcolumns => 16
  | .invmixcolumns => 16
  | .addroundkey => 32
  | .aesenc => 32
  | .aesenclast => 32
  | .aesdec => 32
  | .aesdeclast => 32
  | .aesimc => 16
  | .aeskeygenassist _ => 16
  | .xtime => 1
  | .gfmul => 2
  | .subword => 4
  | .rotword => 4
  | .kexpt _ => 4

/-- A safe run: after any number of steps there is a next state, never a fault and never a refusal. -/
def Safe (s : State) : Prop := ∀ n : Nat, ∃ t : State, core.run n s = .next t

end Sys2Proof.Machine
end

