-- ==== Sys2Proof/Certificates/Slice0/Obligations.lean ====
section
/-! DEFINITION. The statements about the model, for the provers. Each docstring names the rule or the sentence of spec/ it
formalises. A statement whose ground the spec itself marks as an inference ("[derived: ...]") says so. -/

open Sys2Proof Sys2Proof.Machine

/-! ### Encoding -/

/-- Every well-formed command survives encoding and decoding (R60, R62, R66, R68). -/
def Obligations.DecodeOfEncodeIsTheCommand : Prop :=
  ∀ i : Instr, i.wellFormed = true → decode (encode i) = .ok i

/-- Each legal word has one meaning, and encoding that meaning gives the word back: no bit of CMD is dropped (R60, R63). -/
def Obligations.EncodeOfDecodeIsTheWord : Prop :=
  ∀ (cmd : Word) (i : Instr), decode cmd = .ok i → encode i = cmd ∧ i.wellFormed = true

/-- R63: the four conditions of a legal word, and what becomes of a word that is not legal. -/
def Obligations.LegalWordsAreThoseOfR63 : Prop :=
  ∀ cmd : Word,
    ((∃ i : Instr, decode cmd = .ok i) ↔
      cmd.extractLsb' 17 15 = 0 ∧
      cmd.extractLsb' 0 8 ∈
        ([0x01, 0x02, 0x03, 0x04, 0x10, 0x11, 0x12, 0x13, 0x14, 0x15, 0x16, 0x20, 0x21, 0x22, 0x23, 0x24, 0x25, 0x30, 0x31,
          0x32, 0x33, 0x34] : List Byte) ∧
      (cmd.extractLsb' 8 8 = 0 ∨ cmd.extractLsb' 0 8 ∈ ([0x04, 0x25, 0x34] : List Byte)) ∧
      (cmd.extractLsb' 16 1 = 0 ∨ cmd.extractLsb' 0 8 = 0x04)) ∧
    ((∀ i : Instr, decode cmd ≠ .ok i) →
      ∀ (s : State) (din : Data), issue s cmd din = .next { s with status := 0x01, dout := 0 })

/-- R67: the reserved opcodes, a nonzero RSV, and a nonzero IMM8 or SEL where R63 requires zero are each rejected with
ERR_ILLEGAL, which does nothing else; so is the all-zero word. -/
def Obligations.ReservedWordsAreRejected : Prop :=
  ∀ (s : State) (cmd : Word) (din : Data),
    (cmd.toNat % 256 = 0x00 ∨ (0x05 ≤ cmd.toNat % 256 ∧ cmd.toNat % 256 ≤ 0x0F) ∨
      (0x17 ≤ cmd.toNat % 256 ∧ cmd.toNat % 256 ≤ 0x1F) ∨ (0x26 ≤ cmd.toNat % 256 ∧ cmd.toNat % 256 ≤ 0x2F) ∨
      0x35 ≤ cmd.toNat % 256 ∨
      cmd.toNat / 2 ^ 17 ≠ 0 ∨
      (cmd.toNat / 2 ^ 8 % 256 ≠ 0 ∧ cmd.toNat % 256 ≠ 0x04 ∧ cmd.toNat % 256 ≠ 0x25 ∧ cmd.toNat % 256 ≠ 0x34) ∨
      (cmd.toNat / 2 ^ 16 % 2 ≠ 0 ∧ cmd.toNat % 256 ≠ 0x04) ∨
      cmd = 0) →
    issue s cmd din = .next { s with status := 0x01, dout := 0 }

/-- The match/mask rows of R68, which the spec derives from R60 and R63, read the same commands as the decoder: a decoded
word meets its own row, and a word that meets a row is decoded to a command of that row. -/
def Obligations.MatchMaskRowsAgreeWithTheDecoder : Prop :=
  (∀ (cmd : Word) (i : Instr), decode cmd = .ok i → cmd &&& rowMask i = rowMatch i) ∧
  (∀ (cmd : Word) (i : Instr), cmd &&& rowMask i = rowMatch i → ∃ j : Instr, decode cmd = .ok j ∧ opcode j = opcode i)

/-- Words written out from R68's patterns, one of each opcode group and one with each operand field. -/
def Obligations.WordsWrittenFromR68Decode : Prop :=
  decode 0b00000000000000000000000000000001 = .ok .setkey ∧
  decode 0b00000000000000010000101000000100 = .ok (.rdrk 10 .dec) ∧
  decode 0b00000000000000000000000000010110 = .ok .addroundkey ∧
  decode 0b00000000000000000000000000100010 = .ok .aesdec ∧
  decode 0b00000000000000000000000100100101 = .ok (.aeskeygenassist 0x01) ∧
  decode 0b00000000000000000000000000110001 = .ok .gfmul ∧
  decode 0b00000000000000000010101100110100 = .ok (.kexpt 43)

/-- What the assembler of R69 makes of a line is always a legal command, and every DIN byte outside the command's fields is
zero. Which lines it refuses is the model's choice (log entry 6). -/
def Obligations.AssembledLinesAreLegalCommands : Prop :=
  ∀ (k : KeySize) (line : String) (cmd : Word) (din : Data), assemble k line = some (.request cmd din) →
    ∃ i : Instr, decode cmd = .ok i ∧ ∀ b : Nat, dinUsed k i ≤ b → byteAt din b = 0

/-! ### Steps, inputs and reset -/

/-- A step takes the oldest request of the inbox, runs the command its CMD decodes to on its DIN, and takes the request off
the inbox (R46, R47, R48, R51). The inbox is the model's own way to hold the inputs of a step (log entry 2). -/
def Obligations.StepRunsTheDecodedCommand : Prop :=
  ∀ (s : State) (cmd : Word) (din : Data) (rest : List Input) (i : Instr),
    s.inbox = .request cmd din :: rest → decode cmd = .ok i →
    s.din = din ∧
    step s =
      match exec i s with
      | .next t => .next { t with inbox := rest }
      | .fault r => .fault r
      | .refused r => .refused r

/-- With nothing presented the block is idle and keeps all its state (R254). -/
def Obligations.IdleStepKeepsAllState : Prop :=
  ∀ s : State, s.inbox = [] → step s = .next s

/-- A hardware reset, between commands or during one, gives KEY_VALID = 0, STATUS = 0x00 and DOUT = 0 and leaves the
parameters; a command it abandons has no other effect and no response (R260, R262). The clause `t.inbox = rest`,
that the requests waiting behind a reset survive it, is the model's choice (log entry 2), and so is that the schedule storage
keeps its shape, the model's reading of "unspecified" (log entry 4). -/
def Obligations.ResetAbandonsTheCommand : Prop :=
  ∀ (s : State) (rest : List Input),
    (∀ (cmd : Word) (din : Data),
      step { s with inbox := .resetDuring cmd din :: rest } = step { s with inbox := .reset :: rest }) ∧
    ∃ t : State, step { s with inbox := .reset :: rest } = .next t ∧
      t.keyValid = false ∧ t.status = 0x00 ∧ t.dout = 0 ∧ t.params = s.params ∧ t.inbox = rest ∧
      t.w.length = s.w.length ∧ t.rk.length = s.rk.length ∧ t.drk.length = s.drk.length

/-- R9: the three values of KEY_BITS, the sizes they fix, the refusal of any other value, and that no step changes it; the
same for PATH (R10). -/
def Obligations.KeyBitsIsFixedAndAnyOtherIsRefused : Prop :=
  nb = 4 ∧
  (∀ path : Path, ∃ t : State, makeInstance 128 path = .next t ∧ t.params = ⟨.k128, path⟩ ∧
    t.params.keySize.nk = 4 ∧ t.params.keySize.nr = 10) ∧
  (∀ path : Path, ∃ t : State, makeInstance 192 path = .next t ∧ t.params = ⟨.k192, path⟩ ∧
    t.params.keySize.nk = 6 ∧ t.params.keySize.nr = 12) ∧
  (∀ path : Path, ∃ t : State, makeInstance 256 path = .next t ∧ t.params = ⟨.k256, path⟩ ∧
    t.params.keySize.nk = 8 ∧ t.params.keySize.nr = 14) ∧
  (∀ (n : Nat) (path : Path), n ≠ 128 → n ≠ 192 → n ≠ 256 → makeInstance n path = .refused (.noSuchKeyBits n)) ∧
  (∀ k : KeySize, k.nk = k.bits / 32 ∧ k.nr = k.nk + 6) ∧
  (∀ s t : State, step s = .next t → t.params = s.params)

/-- Right after reset KEY_VALID = 0, STATUS = 0x00 and DOUT = 0 on every instance (R260, R35), and the model's first instance
is one of them. That it is the 128-bit one on the hardware path is the model's choice (log entry 1). -/
def Obligations.ResetLeavesTheValuesOfR260 : Prop :=
  (∀ p : Params, (State.fresh p).params = p ∧ (State.fresh p).keyValid = false ∧ (State.fresh p).status = 0x00 ∧
    (State.fresh p).dout = 0) ∧
  State.reset = State.fresh ⟨.k128, .hw⟩

/-- Every run goes on: a command "always completes" (R270), a rejection is a response (R241), and the block has no traps
(R246). -/
def Obligations.EveryRunIsSafe : Prop :=
  ∀ s : State, Safe s

/-- Every step keeps the invariant: the shape of the schedule storage (R26-R28), one of the four status codes with DOUT = 0
beside an error (R240, R241), and a valid schedule that is the one of some key (R30). -/
def Obligations.EveryStepKeepsTheInvariant : Prop :=
  ∀ s t : State, s.Inv → step s = .next t → t.Inv

/-- Every instance has the invariant right after reset. The zeros in its schedule storage are the model's choice (log
entry 3). -/
def Obligations.FreshInstancesHaveTheInvariant : Prop :=
  (∀ p : Params, (State.fresh p).Inv) ∧ State.reset.Inv

/-! ### Frames and status -/

/-- R29 and the frame of 21 commands: a command other than SETKEY changes STATUS and DOUT and nothing else; the parameters,
KEY_VALID, W, RK, DRK and the inputs to come are as they were. -/
def Obligations.OnlySetkeyWritesTheSchedule : Prop :=
  ∀ (i : Instr) (s t : State), i ≠ .setkey → exec i s = .next t →
    t = { s with status := t.status, dout := t.dout }

/-- R25: KEY_VALID is 0 at reset, SETKEY sets it to 1, no command clears it, only reset does, and with KEY_VALID = 0 ENCRYPT,
DECRYPT and RDRK reject with ERR_NOKEY. -/
def Obligations.KeyValidIsSetBySetkeyAndClearedByReset : Prop :=
  (∀ p : Params, (State.fresh p).keyValid = false) ∧
  (∀ s : State, ∃ t : State, exec .setkey s = .next t ∧ t.keyValid = true) ∧
  (∀ (i : Instr) (s t : State), exec i s = .next t → s.keyValid = true → t.keyValid = true) ∧
  (∀ s t : State, step s = .next t → s.keyValid = true → t.keyValid = false →
    ∃ rest : List Input, s.inbox = .reset :: rest ∨ ∃ (cmd : Word) (din : Data), s.inbox = .resetDuring cmd din :: rest) ∧
  (∀ s : State, s.keyValid = false →
    exec .encrypt s = .next { s with status := 0x02, dout := 0 } ∧
    exec .decrypt s = .next { s with status := 0x02, dout := 0 } ∧
    ∀ (r : Nat) (sel : Sel), exec (.rdrk r sel) s = .next { s with status := 0x02, dout := 0 })

/-- R241: a command that ends in an error code sets STATUS to it and DOUT to 16 zero bytes, and leaves everything else. -/
def Obligations.RejectionChangesStatusAndDoutOnly : Prop :=
  ∀ (s t : State) (cmd : Word) (din : Data), issue s cmd din = .next t → t.status ≠ 0x00 →
    t = { s with status := t.status, dout := 0 }

/-- R242: ERR_NOKEY exactly when CMD is legal, its command is ENCRYPT, DECRYPT or RDRK, and KEY_VALID = 0. -/
def Obligations.NoKeyErrorExactlyWithoutAKey : Prop :=
  ∀ (s t : State) (cmd : Word) (din : Data), issue s cmd din = .next t →
    (t.status = 0x02 ↔
      s.keyValid = false ∧
        (decode cmd = .ok .encrypt ∨ decode cmd = .ok .decrypt ∨ ∃ (r : Nat) (sel : Sel), decode cmd = .ok (.rdrk r sel)))

/-- R244: ERR_ARG exactly when a legal command that passes R242 has its argument out of range. -/
def Obligations.ArgErrorExactlyOutOfRange : Prop :=
  ∀ (s t : State) (cmd : Word) (din : Data), issue s cmd din = .next t →
    (t.status = 0x03 ↔
      (∃ (r : Nat) (sel : Sel), decode cmd = .ok (.rdrk r sel) ∧ s.keyValid = true ∧
        (s.params.keySize.nr < r ∨ (sel = .dec ∧ s.params.path = .sw))) ∨
      (∃ j : Nat, decode cmd = .ok (.kexpt j) ∧ (j < s.params.keySize.nk ∨ 4 * (s.params.keySize.nr + 1) ≤ j)))

/-- R64: the DIN bytes that R62 does not list for a command have no effect on anything the command does. -/
def Obligations.UnusedDinBytesAreIgnored : Prop :=
  ∀ (s : State) (cmd : Word) (i : Instr) (d d' : Data), decode cmd = .ok i →
    (∀ b : Nat, b < dinUsed s.params.keySize i → byteAt d b = byteAt d' b) →
    issue s cmd d = issue s cmd d'

/-- R261: before the first SETKEY since reset nothing a host sees depends on what the schedule storage holds, and no run of
any length shows it, also across SETKEY and further resets. It is R86 as well: a response is a function of CMD, DIN, the
parameters and the state of R20. -/
def Obligations.StaleScheduleIsNeverSeen : Prop :=
  ∀ (n : Nat) (s t : State), s.SameToHost t →
    ∃ s' t' : State, core.run n s = .next s' ∧ core.run n t = .next t' ∧ s'.SameToHost t'

/-- R264: a SETKEY replaces the whole schedule, so the state after it shows no trace of the key that was loaded before. -/
def Obligations.RekeyingLeavesNoTraceOfTheOldKey : Prop :=
  ∀ (s s' : State) (din : Data), s.params = s'.params → s.inbox = s'.inbox →
    ∃ t t' : State, issue s 0x00000001 din = .next t ∧ issue s' 0x00000001 din = .next t' ∧
      t.SameToHost t' ∧ t.keyValid = true

/-- R80's corner case: SETKEY with the key already loaded leaves the state unchanged. -/
def Obligations.SetkeyAgainChangesNothing : Prop :=
  ∀ (s : State) (din : Data), ∃ t : State, issue s 0x00000001 din = .next t ∧ issue t 0x00000001 din = .next t

/-- R252: a step of one instance of a system is that instance's step, and the other instances are as they were. -/
def Obligations.OtherInstancesAreUntouched : Prop :=
  ∀ (sys sys' : List State) (n : Nat), stepInstance n sys = .next sys' →
    (∀ m : Nat, m ≠ n → sys'[m]? = sys[m]?) ∧
    (∀ s : State, sys[n]? = some s → ∃ t : State, step s = .next t ∧ sys'[n]? = some t)

/-! ### Facade commands -/

/-- SETKEY on a SW instance (R80): W is KeyExpansion of the key bytes, given here by the first segment of R136 and the
recurrence of R133 with the word transform T of R134. Nothing else changes but KEY_VALID and the response. -/
def Obligations.SetkeyBuildsTheWordSchedule : Prop :=
  ∀ s : State, s.params.path = .sw →
    ∃ t : State, exec .setkey s = .next t ∧
      t = { s with w := t.w, keyValid := true, status := 0x00, dout := 0 } ∧
      t.w.length = 4 * (s.params.keySize.nr + 1) ∧
      (∀ i : Nat, i < s.params.keySize.nk →
        t.w.getD i 0 =
          packBE (byteAt s.din (4 * i)) (byteAt s.din (4 * i + 1)) (byteAt s.din (4 * i + 2)) (byteAt s.din (4 * i + 3))) ∧
      (∀ i : Nat, s.params.keySize.nk ≤ i → i < 4 * (s.params.keySize.nr + 1) →
        t.w.getD i 0 =
          t.w.getD (i - s.params.keySize.nk) 0 ^^^
            (if i % s.params.keySize.nk = 0 then
              subWord (rotWord (t.w.getD (i - 1) 0)) ^^^ rconWord (i / s.params.keySize.nk)
            else if 6 < s.params.keySize.nk ∧ i % s.params.keySize.nk = 4 then subWord (t.w.getD (i - 1) 0)
            else t.w.getD (i - 1) 0))

/-- SETKEY on a HW instance (R80, R190): RK is HwExpand of the key bytes; RK and DRK have Nr+1 lanes each; DRK[0] = RK[Nr],
DRK[Nr] = RK[0], and each inner DRK[Nr−i] is InvMixColumns of RK[i]. Nothing else changes but KEY_VALID and the response. -/
def Obligations.SetkeyBuildsBothLaneSchedules : Prop :=
  ∀ s : State, s.params.path = .hw →
    ∃ t : State, exec .setkey s = .next t ∧
      t = { s with rk := t.rk, drk := t.drk, keyValid := true, status := 0x00, dout := 0 } ∧
      t.rk = hwExpand s.params.keySize (keyOperand s.params.keySize s.din) ∧
      t.rk.length = s.params.keySize.nr + 1 ∧ t.drk.length = s.params.keySize.nr + 1 ∧
      t.drk.getD 0 0 = t.rk.getD s.params.keySize.nr 0 ∧
      t.drk.getD s.params.keySize.nr 0 = t.rk.getD 0 0 ∧
      (∀ i : Nat, 1 ≤ i → i ≤ s.params.keySize.nr - 1 →
        t.drk.getD (s.params.keySize.nr - i) 0 = invMixColumns (t.rk.getD i 0))

/-- Law 7 and R30: after SETKEY the first round keys, read back with RDRK, are the key bytes in order, on both paths. -/
def Obligations.FirstRoundKeysAreTheKeyBytes : Prop :=
  ∀ (s : State) (key din : Data), ∃ t u0 u1 : State,
    issue s 0x00000001 key = .next t ∧ issue t 0x00000004 din = .next u0 ∧ issue t 0x00000104 din = .next u1 ∧
    u0.status = 0x00 ∧ (∀ b : Nat, b < 16 → byteAt u0.dout b = byteAt key b) ∧
    u1.status = 0x00 ∧
    (s.params.keySize = .k192 → ∀ b : Nat, b < 8 → byteAt u1.dout b = byteAt key (16 + b)) ∧
    (s.params.keySize = .k256 → ∀ b : Nat, b < 16 → byteAt u1.dout b = byteAt key (16 + b))

/-- ENCRYPT (R81): ERR_NOKEY without a key; else SwCipher over W or HwCipher over RK of DIN[0..16), and nothing but the
response is written. -/
def Obligations.EncryptAnswersTheCipher : Prop :=
  ∀ s : State,
    (s.keyValid = false → exec .encrypt s = .next { s with status := 0x02, dout := 0 }) ∧
    (s.keyValid = true → s.params.path = .sw →
      exec .encrypt s =
        .next { s with status := 0x00, dout := swCipher s.params.keySize.nr (s.din.extractLsb' 0 128) s.w }) ∧
    (s.keyValid = true → s.params.path = .hw →
      exec .encrypt s =
        .next { s with status := 0x00, dout := hwCipher s.params.keySize.nr (s.din.extractLsb' 0 128) s.rk })

/-- DECRYPT (R82): ERR_NOKEY without a key; else SwInvCipher over W or HwInvCipher over DRK of DIN[0..16), and nothing but
the response is written. -/
def Obligations.DecryptAnswersTheInverseCipher : Prop :=
  ∀ s : State,
    (s.keyValid = false → exec .decrypt s = .next { s with status := 0x02, dout := 0 }) ∧
    (s.keyValid = true → s.params.path = .sw →
      exec .decrypt s =
        .next { s with status := 0x00, dout := swInvCipher s.params.keySize.nr (s.din.extractLsb' 0 128) s.w }) ∧
    (s.keyValid = true → s.params.path = .hw →
      exec .decrypt s =
        .next { s with status := 0x00, dout := hwInvCipher s.params.keySize.nr (s.din.extractLsb' 0 128) s.drk })

/-- RDRK (R83, R192): the two rejections in their order, LaneOf(W, r) byte by byte on a SW instance, RK[r] or DRK[r] on a HW
instance, and nothing but the response is written. -/
def Obligations.RdrkAnswersOneRoundKey : Prop :=
  ∀ (s : State) (r : Nat) (sel : Sel),
    (s.keyValid = false → exec (.rdrk r sel) s = .next { s with status := 0x02, dout := 0 }) ∧
    (s.keyValid = true → s.params.keySize.nr < r → exec (.rdrk r sel) s = .next { s with status := 0x03, dout := 0 }) ∧
    (s.keyValid = true → s.params.path = .sw → sel = .dec →
      exec (.rdrk r sel) s = .next { s with status := 0x03, dout := 0 }) ∧
    (s.keyValid = true → r ≤ s.params.keySize.nr → s.params.path = .sw → sel = .fwd →
      ∃ t : State, exec (.rdrk r sel) s = .next t ∧ t = { s with status := 0x00, dout := t.dout } ∧
        ∀ c j : Nat, c < 4 → j < 4 → byteAt t.dout (4 * c + j) = beByte (s.w.getD (4 * r + c) 0) j) ∧
    (s.keyValid = true → r ≤ s.params.keySize.nr → s.params.path = .hw → sel = .fwd →
      exec (.rdrk r sel) s = .next { s with status := 0x00, dout := s.rk.getD r 0 }) ∧
    (s.keyValid = true → r ≤ s.params.keySize.nr → s.params.path = .hw → sel = .dec →
      exec (.rdrk r sel) s = .next { s with status := 0x00, dout := s.drk.getD r 0 })

/-- Law 8 at the interface: in every state a run can reach, on a HW instance with a key, `RDRK i, dec` answers AESIMC of what
`RDRK Nr−i, fwd` answers, and the two ends are not transformed (R83, R190). -/
def Obligations.RdrkDecIsAesimcOfTheMirroredFwd : Prop :=
  ∀ (s : State) (i : Nat), s.Inv → s.keyValid = true → s.params.path = .hw → i ≤ s.params.keySize.nr →
    ∃ t u : State, exec (.rdrk i .dec) s = .next t ∧ exec (.rdrk (s.params.keySize.nr - i) .fwd) s = .next u ∧
      t.status = 0x00 ∧ u.status = 0x00 ∧
      ((i = 0 ∨ i = s.params.keySize.nr) → t.dout = u.dout) ∧
      (1 ≤ i → i ≤ s.params.keySize.nr - 1 → t.dout = aesimc u.dout)

/-- Laws 1 and 2 (R84, which the spec derives from R81, R82, R120, R121, R170, R171, R190): on every instance and for every
key, DECRYPT undoes ENCRYPT and ENCRYPT undoes DECRYPT, whatever the unused DIN bytes hold. -/
def Obligations.EncryptAndDecryptUndoEachOther : Prop :=
  ∀ (s : State) (key blk : Data), ∃ t u v : State,
    issue s 0x00000001 key = .next t ∧ issue t 0x00000002 blk = .next u ∧ issue t 0x00000003 blk = .next v ∧
    (∀ din : Data, din.extractLsb' 0 128 = u.dout → ∃ x : State, issue u 0x00000003 din = .next x ∧ x.status = 0x00 ∧
      x.dout = blk.extractLsb' 0 128) ∧
    (∀ din : Data, din.extractLsb' 0 128 = v.dout → ∃ x : State, issue v 0x00000002 din = .next x ∧ x.status = 0x00 ∧
      x.dout = blk.extractLsb' 0 128)

/-- Law 3 (R85, which the spec derives from R42 and R172): a SW and a HW instance of one KEY_BITS with the same key loaded
give the same response to every word but an RDRK of the decryption schedule. -/
def Obligations.BothPathsAnswerAlike : Prop :=
  ∀ (s t : State) (key : Data),
    s.params.path = .sw → t.params.path = .hw → s.params.keySize = t.params.keySize →
    ∃ s1 t1 : State, issue s 0x00000001 key = .next s1 ∧ issue t 0x00000001 key = .next t1 ∧
      ∀ (cmd : Word) (din : Data), (∀ r : Nat, decode cmd ≠ .ok (.rdrk r .dec)) →
        ∃ s2 t2 : State, issue s1 cmd din = .next s2 ∧ issue t1 cmd din = .next t2 ∧
          s2.status = t2.status ∧ s2.dout = t2.dout

/-! ### Software round primitives -/

/-- SUBBYTES and INVSUBBYTES replace each byte by its table entry (R100, R101); only the response is written. -/
def Obligations.SubBytesCommandsReplaceEachByte : Prop :=
  ∀ s : State,
    (∃ t : State, exec .subbytes s = .next t ∧ t = { s with status := 0x00, dout := t.dout } ∧
      ∀ i : Nat, i < 16 → byteAt t.dout i = sbox (byteAt s.din i)) ∧
    (∃ t : State, exec .invsubbytes s = .next t ∧ t = { s with status := 0x00, dout := t.dout } ∧
      ∀ i : Nat, i < 16 → byteAt t.dout i = invSbox (byteAt s.din i))

/-- SHIFTROWS rotates row r left by r and INVSHIFTROWS rotates it right by r; byte i of SHIFTROWS is byte SR[i] of the input
(R102, R103); only the response is written. -/
def Obligations.ShiftRowsCommandsRotateTheRows : Prop :=
  ∀ s : State,
    (∃ t : State, exec .shiftrows s = .next t ∧ t = { s with status := 0x00, dout := t.dout } ∧
      (∀ c r : Nat, c < 4 → r < 4 → byteAt t.dout (4 * c + r) = byteAt s.din (4 * ((c + r) % 4) + r)) ∧
      (∀ i : Nat, i < 16 →
        byteAt t.dout i = byteAt s.din ([0, 5, 10, 15, 4, 9, 14, 3, 8, 13, 2, 7, 12, 1, 6, 11].getD i 0))) ∧
    (∃ t : State, exec .invshiftrows s = .next t ∧ t = { s with status := 0x00, dout := t.dout } ∧
      (∀ c r : Nat, c < 4 → r < 4 → byteAt t.dout (4 * c + r) = byteAt s.din (4 * ((c + 4 - r) % 4) + r)) ∧
      (∀ i : Nat, i < 16 →
        byteAt t.dout i = byteAt s.din ([0, 13, 10, 7, 4, 1, 14, 11, 8, 5, 2, 15, 12, 9, 6, 3].getD i 0)))

/-- MIXCOLUMNS multiplies each column by R104's matrix, with 2·x and 3·x as R104 gives them; only the response is written. -/
def Obligations.MixColumnsCommandMixesEachColumn : Prop :=
  ∀ s : State, ∃ t : State, exec .mixcolumns s = .next t ∧ t = { s with status := 0x00, dout := t.dout } ∧
    ∀ c : Nat, c < 4 →
      let a := byteAt s.din (4 * c)
      let b := byteAt s.din (4 * c + 1)
      let d := byteAt s.din (4 * c + 2)
      let e := byteAt s.din (4 * c + 3)
      byteAt t.dout (4 * c) = xtime a ^^^ (xtime b ^^^ b) ^^^ d ^^^ e ∧
      byteAt t.dout (4 * c + 1) = a ^^^ xtime b ^^^ (xtime d ^^^ d) ^^^ e ∧
      byteAt t.dout (4 * c + 2) = a ^^^ b ^^^ xtime d ^^^ (xtime e ^^^ e) ∧
      byteAt t.dout (4 * c + 3) = (xtime a ^^^ a) ^^^ b ^^^ d ^^^ xtime e

/-- INVMIXCOLUMNS and its second spelling AESIMC multiply each column by R105's matrix (R105, R115, R154, R164); only the
response is written. -/
def Obligations.InvMixColumnsCommandsUnmixEachColumn : Prop :=
  ∀ s : State, ∃ t : State, exec .invmixcolumns s = .next t ∧ exec .aesimc s = .next t ∧
    t = { s with status := 0x00, dout := t.dout } ∧
    ∀ c : Nat, c < 4 →
      let a := byteAt s.din (4 * c)
      let b := byteAt s.din (4 * c + 1)
      let d := byteAt s.din (4 * c + 2)
      let e := byteAt s.din (4 * c + 3)
      byteAt t.dout (4 * c) = gfMul 0x0e a ^^^ gfMul 0x0b b ^^^ gfMul 0x0d d ^^^ gfMul 0x09 e ∧
      byteAt t.dout (4 * c + 1) = gfMul 0x09 a ^^^ gfMul 0x0e b ^^^ gfMul 0x0b d ^^^ gfMul 0x0d e ∧
      byteAt t.dout (4 * c + 2) = gfMul 0x0d a ^^^ gfMul 0x09 b ^^^ gfMul 0x0e d ^^^ gfMul 0x0b e ∧
      byteAt t.dout (4 * c + 3) = gfMul 0x0b a ^^^ gfMul 0x0d b ^^^ gfMul 0x09 d ^^^ gfMul 0x0e e

/-- ADDROUNDKEY XORs DIN[0..16) with DIN[16..32) byte by byte (R116); only the response is written. -/
def Obligations.AddRoundKeyCommandXorsTheKey : Prop :=
  ∀ s : State, ∃ t : State, exec .addroundkey s = .next t ∧ t = { s with status := 0x00, dout := t.dout } ∧
    ∀ i : Nat, i < 16 → byteAt t.dout i = byteAt s.din i ^^^ byteAt s.din (16 + i)

/-- The transforms undo each other (R101, R103; for the columns it is the spec's own inference in R105). -/
def Obligations.InverseTransformsUndoTheTransforms : Prop :=
  ∀ x : Lane,
    invSubBytes (subBytes x) = x ∧ subBytes (invSubBytes x) = x ∧
    invShiftRows (shiftRows x) = x ∧ shiftRows (invShiftRows x) = x ∧
    invMixColumns (mixColumns x) = x ∧ mixColumns (invMixColumns x) = x

/-- The algebraic facts of R107, which the spec derives from R100 to R105. -/
def Obligations.TransformsCommuteAndMixingIsLinear : Prop :=
  ∀ x y : Lane,
    shiftRows (subBytes x) = subBytes (shiftRows x) ∧ invShiftRows (invSubBytes x) = invSubBytes (invShiftRows x) ∧
    mixColumns (x ^^^ y) = mixColumns x ^^^ mixColumns y ∧ invMixColumns (x ^^^ y) = invMixColumns x ^^^ invMixColumns y

/-- R121's last sentence, which the spec derives: SwInvCipher and SwCipher undo each other for every block and every word
schedule. -/
def Obligations.SwInvCipherUndoesSwCipher : Prop :=
  ∀ (nr : Nat) (b : Lane) (w : List Word),
    swInvCipher nr (swCipher nr b w) w = b ∧ swCipher nr (swInvCipher nr b w) w = b

/-! ### Hardware round operations -/

/-- AESENC and AESENCLAST byte by byte: SubBytes, ShiftRows, (MixColumns,) then the XOR with DIN[16..32) (R150, R151); only
the response is written. -/
def Obligations.ForwardRoundCommandsDoOneRound : Prop :=
  ∀ s : State,
    (∃ t : State, exec .aesenc s = .next t ∧ t = { s with status := 0x00, dout := t.dout } ∧
      ∀ c : Nat, c < 4 →
        let a := sbox (byteAt s.din (4 * c))
        let b := sbox (byteAt s.din (4 * ((c + 1) % 4) + 1))
        let d := sbox (byteAt s.din (4 * ((c + 2) % 4) + 2))
        let e := sbox (byteAt s.din (4 * ((c + 3) % 4) + 3))
        byteAt t.dout (4 * c) = gfMul 0x02 a ^^^ gfMul 0x03 b ^^^ d ^^^ e ^^^ byteAt s.din (16 + 4 * c) ∧
        byteAt t.dout (4 * c + 1) = a ^^^ gfMul 0x02 b ^^^ gfMul 0x03 d ^^^ e ^^^ byteAt s.din (16 + 4 * c + 1) ∧
        byteAt t.dout (4 * c + 2) = a ^^^ b ^^^ gfMul 0x02 d ^^^ gfMul 0x03 e ^^^ byteAt s.din (16 + 4 * c + 2) ∧
        byteAt t.dout (4 * c + 3) = gfMul 0x03 a ^^^ b ^^^ d ^^^ gfMul 0x02 e ^^^ byteAt s.din (16 + 4 * c + 3)) ∧
    (∃ t : State, exec .aesenclast s = .next t ∧ t = { s with status := 0x00, dout := t.dout } ∧
      ∀ c r : Nat, c < 4 → r < 4 →
        byteAt t.dout (4 * c + r) = sbox (byteAt s.din (4 * ((c + r) % 4) + r)) ^^^ byteAt s.din (16 + (4 * c + r)))

/-- AESDEC and AESDECLAST byte by byte: InvShiftRows, InvSubBytes, (InvMixColumns,) then the XOR with DIN[16..32) (R152,
R153); only the response is written. For AESDECLAST it follows the pseudocode of R163, and not R163's round-trip sentence,
which contradicts it: the model's choice (log entry 15). -/
def Obligations.InverseRoundCommandsDoOneRound : Prop :=
  ∀ s : State,
    (∃ t : State, exec .aesdec s = .next t ∧ t = { s with status := 0x00, dout := t.dout } ∧
      ∀ c : Nat, c < 4 →
        let a := invSbox (byteAt s.din (4 * c))
        let b := invSbox (byteAt s.din (4 * ((c + 3) % 4) + 1))
        let d := invSbox (byteAt s.din (4 * ((c + 2) % 4) + 2))
        let e := invSbox (byteAt s.din (4 * ((c + 1) % 4) + 3))
        byteAt t.dout (4 * c) =
          gfMul 0x0e a ^^^ gfMul 0x0b b ^^^ gfMul 0x0d d ^^^ gfMul 0x09 e ^^^ byteAt s.din (16 + 4 * c) ∧
        byteAt t.dout (4 * c + 1) =
          gfMul 0x09 a ^^^ gfMul 0x0e b ^^^ gfMul 0x0b d ^^^ gfMul 0x0d e ^^^ byteAt s.din (16 + 4 * c + 1) ∧
        byteAt t.dout (4 * c + 2) =
          gfMul 0x0d a ^^^ gfMul 0x09 b ^^^ gfMul 0x0e d ^^^ gfMul 0x0b e ^^^ byteAt s.din (16 + 4 * c + 2) ∧
        byteAt t.dout (4 * c + 3) =
          gfMul 0x0b a ^^^ gfMul 0x0d b ^^^ gfMul 0x09 d ^^^ gfMul 0x0e e ^^^ byteAt s.din (16 + 4 * c + 3)) ∧
    (∃ t : State, exec .aesdeclast s = .next t ∧ t = { s with status := 0x00, dout := t.dout } ∧
      ∀ c r : Nat, c < 4 → r < 4 →
        byteAt t.dout (4 * c + r) = invSbox (byteAt s.din (4 * ((c + 4 - r) % 4) + r)) ^^^ byteAt s.din (16 + (4 * c + r)))

/-- AESKEYGENASSIST byte by byte (R155, R156): dwords 1 and 3 of the input through the S-box, then the same rotated by one
byte with imm8 in bytes 4 and 12; dwords 0 and 2 of the input have no part; only the response is written. -/
def Obligations.KeygenAssistCommandByteByByte : Prop :=
  ∀ (s : State) (imm8 : Byte), ∃ t : State,
    exec (.aeskeygenassist imm8) s = .next t ∧ t = { s with status := 0x00, dout := t.dout } ∧
    ∀ b : Nat, b < 4 →
      byteAt t.dout b = sbox (byteAt s.din (4 + b)) ∧
      byteAt t.dout (4 + b) = sbox (byteAt s.din (4 + (b + 1) % 4)) ^^^ (if b = 0 then imm8 else 0) ∧
      byteAt t.dout (8 + b) = sbox (byteAt s.din (12 + b)) ∧
      byteAt t.dout (12 + b) = sbox (byteAt s.din (12 + (b + 1) % 4)) ^^^ (if b = 0 then imm8 else 0)

/-- R157, which the spec derives: AESKEYGENASSIST with Rcon[j] computes the word transform of the software path on dwords 3
and 1, in byte order. -/
def Obligations.KeygenAssistComputesTheWordTransform : Prop :=
  ∀ (x : Lane) (v : Word) (j : Nat),
    ((∀ b : Nat, b < 4 → byteAt (dword x 3) b = beByte v b) → ∀ b : Nat, b < 4 →
      byteAt (dword (aeskeygenassist x (rcon j)) 3) b = beByte (subWord (rotWord v) ^^^ rconWord j) b ∧
      byteAt (dword (aeskeygenassist x (rcon j)) 2) b = beByte (subWord v) b) ∧
    ((∀ b : Nat, b < 4 → byteAt (dword x 1) b = beByte v b) → ∀ b : Nat, b < 4 →
      byteAt (dword (aeskeygenassist x (rcon j)) 1) b = beByte (subWord (rotWord v) ^^^ rconWord j) b ∧
      byteAt (dword (aeskeygenassist x (rcon j)) 0) b = beByte (subWord v) b)

/-- R172, which the spec derives: over corresponding schedules HwCipher is SwCipher and HwInvCipher over DeriveInverse is
SwInvCipher. -/
def Obligations.HwCiphersAgreeWithSwCiphers : Prop :=
  ∀ (nr : Nat) (b : Lane) (w : List Word) (rk : List Lane), (∀ r : Nat, r ≤ nr → rk.getD r 0 = laneOf w r) →
    hwCipher nr b rk = swCipher nr b w ∧ hwInvCipher nr b (deriveInverse nr rk) = swInvCipher nr b w

/-! ### Hardware key schedule -/

/-- R179's consequence, which the spec derives: dword m of Prefix(x) is the XOR of dwords 0 to m. -/
def Obligations.PrefixXorsTheDwordsBelow : Prop :=
  ∀ x : Lane,
    dword (prefixXor x) 0 = dword x 0 ∧
    dword (prefixXor x) 1 = dword x 0 ^^^ dword x 1 ∧
    dword (prefixXor x) 2 = dword x 0 ^^^ dword x 1 ^^^ dword x 2 ∧
    dword (prefixXor x) 3 = dword x 0 ^^^ dword x 1 ^^^ dword x 2 ^^^ dword x 3

/-- R188 and R191's last sentence, which the spec derives: for every key each of the three lane expansions is the software
expansion laid into lanes. -/
def Obligations.LaneExpansionsAreTheWordExpansion : Prop :=
  ∀ (k : KeySize) (key : Data), hwExpand k key = fallbackExpand k.nk k.nr key

/-- R184's last sentence and R33: no finished entry of Expand192 depends on the high 64 bits of the initial w[1]. -/
def Obligations.Expand192IgnoresTheUnusedHalf : Prop :=
  ∀ (hi : Half) (key : Data), expand192With hi key = expand192 key

/-- R187: the immediate of Expand256's trailing steps does not change RK. -/
def Obligations.Expand256IgnoresTheTrailingImmediate : Prop :=
  ∀ (imm : Byte) (key : Data), expand256With imm key = expand256 key

/-! ### GF(2⁸), tables and key words -/

/-- XTIME (R212, R220): twice DIN[0], in numbers; 15 zero bytes above it (R65); only the response is written. -/
def Obligations.XtimeCommandDoubles : Prop :=
  ∀ s : State, ∃ t : State, exec .xtime s = .next t ∧ t = { s with status := 0x00, dout := t.dout } ∧
    (byteAt t.dout 0).toNat =
      (if (byteAt s.din 0).toNat < 128 then 2 * (byteAt s.din 0).toNat else (2 * (byteAt s.din 0).toNat - 256) ^^^ 0x1B) ∧
    ∀ i : Nat, 1 ≤ i → i < 16 → byteAt t.dout i = 0

/-- GFMUL (R213, R221): the XOR of a·2^k over the set bits k of b, least significant first; 15 zero bytes above it (R65);
only the response is written. -/
def Obligations.GfmulCommandMultiplies : Prop :=
  ∀ s : State, ∃ t : State, exec .gfmul s = .next t ∧ t = { s with status := 0x00, dout := t.dout } ∧
    byteAt t.dout 0 =
      (List.range 8).foldl
        (fun r k => if (byteAt s.din 1).getLsbD k then r ^^^ xtime^[k] (byteAt s.din 0) else r) 0 ∧
    ∀ i : Nat, 1 ≤ i → i < 16 → byteAt t.dout i = 0

/-- The laws of R215 (law 6, and what the spec derives from R213). -/
def Obligations.GfMulObeysTheFieldLaws : Prop :=
  ∀ x y z : Byte,
    gfMul 1 x = x ∧ gfMul x y = gfMul y x ∧ gfMul 2 x = xtime x ∧ gfMul 0 x = 0 ∧
    gfMul x (y ^^^ z) = gfMul x y ^^^ gfMul x z ∧
    (x ≠ 0 → ∃ b : Byte, gfMul x b = 1)

/-- R216: the S-box is the affine transform of the inverse in GF(2⁸), with 0 for the inverse of 0. It checks R210. -/
def Obligations.SboxIsTheAffineTransformOfTheInverse : Prop :=
  ∀ x b : Byte, (gfMul x b = 1 ∨ (x = 0 ∧ b = 0)) →
    ∀ i : Nat, i < 8 →
      (sbox x).getLsbD i =
        (b.getLsbD i ^^ b.getLsbD ((i + 4) % 8) ^^ b.getLsbD ((i + 5) % 8) ^^ b.getLsbD ((i + 6) % 8) ^^
          b.getLsbD ((i + 7) % 8) ^^ (0x63 : Byte).getLsbD i)

/-- Law 5 and R211: the two S-boxes undo each other, so each is a permutation. -/
def Obligations.SboxesUndoEachOther : Prop :=
  ∀ x : Byte, invSbox (sbox x) = x ∧ sbox (invSbox x) = x

/-- SUBWORD and ROTWORD byte by byte (R130, R131, R140, R141): the word's most significant byte is DIN[0] and DOUT[0]; 12
zero bytes above it (R65); only the response is written. -/
def Obligations.WordCommandsByteByByte : Prop :=
  ∀ s : State,
    (∃ t : State, exec .subword s = .next t ∧ t = { s with status := 0x00, dout := t.dout } ∧
      (∀ j : Nat, j < 4 → byteAt t.dout j = sbox (byteAt s.din j)) ∧
      ∀ i : Nat, 4 ≤ i → i < 16 → byteAt t.dout i = 0) ∧
    (∃ t : State, exec .rotword s = .next t ∧ t = { s with status := 0x00, dout := t.dout } ∧
      (∀ j : Nat, j < 4 → byteAt t.dout j = byteAt s.din ((j + 1) % 4)) ∧
      ∀ i : Nat, 4 ≤ i → i < 16 → byteAt t.dout i = 0)

/-- KEXPT (R134, R142): ERR_ARG outside [Nk, 4(Nr+1)); inside it the three cases of T byte by byte, with 12 zero bytes above
the word (R65); it needs no key and only the response is written. -/
def Obligations.KexptAnswersTheWordTransform : Prop :=
  ∀ (s : State) (i : Nat),
    ((i < s.params.keySize.nk ∨ 4 * (s.params.keySize.nr + 1) ≤ i) →
      exec (.kexpt i) s = .next { s with status := 0x03, dout := 0 }) ∧
    (s.params.keySize.nk ≤ i → i < 4 * (s.params.keySize.nr + 1) →
      ∃ t : State, exec (.kexpt i) s = .next t ∧ t = { s with status := 0x00, dout := t.dout } ∧
        (∀ j : Nat, 4 ≤ j → j < 16 → byteAt t.dout j = 0) ∧
        ∀ j : Nat, j < 4 →
          byteAt t.dout j =
            if i % s.params.keySize.nk = 0 then
              sbox (byteAt s.din ((j + 1) % 4)) ^^^ (if j = 0 then rcon (i / s.params.keySize.nk) else 0)
            else if s.params.keySize = .k256 ∧ i % 8 = 4 then sbox (byteAt s.din j)
            else byteAt s.din j)
end

