-- ==== Sys2Proof/Laws/Config.lean ====
section
/-! SUPPORT. Nk, Nr and the array sizes of the three key sizes, as numbers (R8, R9, R11). -/

namespace Sys2Proof

@[simp] theorem KeySize.nk_k128 : KeySize.k128.nk = 4 := by decide
@[simp] theorem KeySize.nk_k192 : KeySize.k192.nk = 6 := by decide
@[simp] theorem KeySize.nk_k256 : KeySize.k256.nk = 8 := by decide
@[simp] theorem KeySize.nr_k128 : KeySize.k128.nr = 10 := by decide
@[simp] theorem KeySize.nr_k192 : KeySize.k192.nr = 12 := by decide
@[simp] theorem KeySize.nr_k256 : KeySize.k256.nr = 14 := by decide

/-- Every key size is one of the three, by its Nk and Nr (R8). -/
theorem KeySize.sizes (k : KeySize) :
    (k = .k128 ∧ k.nk = 4 ∧ k.nr = 10) ∨ (k = .k192 ∧ k.nk = 6 ∧ k.nr = 12) ∨ (k = .k256 ∧ k.nk = 8 ∧ k.nr = 14) := by
  cases k <;> decide

@[simp] theorem Params.wordCount_sw (k : KeySize) : Params.wordCount ⟨k, .sw⟩ = 4 * (k.nr + 1) := rfl
@[simp] theorem Params.wordCount_hw (k : KeySize) : Params.wordCount ⟨k, .hw⟩ = 0 := rfl
@[simp] theorem Params.laneCount_sw (k : KeySize) : Params.laneCount ⟨k, .sw⟩ = 0 := rfl
@[simp] theorem Params.laneCount_hw (k : KeySize) : Params.laneCount ⟨k, .hw⟩ = k.nr + 1 := rfl

/-- An instance has W or it has RK and DRK, never both (R26-R28). -/
theorem Params.one_schedule (p : Params) : p.wordCount = 0 ∨ p.laneCount = 0 := by
  cases p with
  | mk k path => cases path <;> simp

end Sys2Proof
end

