-- ==== Sys2Proof/Laws/Encoding.lean ====
section
/-! SUPPORT. The four fields of a command word put together from four fields (R60). -/

namespace Sys2Proof

theorem cmdOpc_fields (rsv : BitVec 15) (sel : BitVec 1) (imm opc : Byte) : cmdOpc (rsv ++ sel ++ imm ++ opc) = opc := by
  apply BitVec.eq_of_getLsbD_eq
  intro j hj
  simp only [cmdOpc, BitVec.getLsbD_extractLsb', BitVec.getLsbD_append, hj, decide_true, Bool.true_and, Nat.zero_add, if_true]

theorem cmdImm8_fields (rsv : BitVec 15) (sel : BitVec 1) (imm opc : Byte) : cmdImm8 (rsv ++ sel ++ imm ++ opc) = imm := by
  apply BitVec.eq_of_getLsbD_eq
  intro j hj
  have h1 : ¬ 8 + j < 8 := by omega
  have h2 : 8 + j - 8 = j := by omega
  simp only [cmdImm8, BitVec.getLsbD_extractLsb', BitVec.getLsbD_append, hj, decide_true, Bool.true_and, h1, if_false, h2, if_true]

theorem cmdSel_fields (rsv : BitVec 15) (sel : BitVec 1) (imm opc : Byte) : cmdSel (rsv ++ sel ++ imm ++ opc) = sel := by
  apply BitVec.eq_of_getLsbD_eq
  intro j hj
  have h1 : ¬ 16 + j < 8 := by omega
  have h2 : ¬ 16 + j - 8 < 8 := by omega
  have h3 : 16 + j - 8 - 8 = j := by omega
  simp only [cmdSel, BitVec.getLsbD_extractLsb', BitVec.getLsbD_append, hj, decide_true, Bool.true_and, h1, if_false, h2, h3, if_true]

theorem cmdRsv_fields (rsv : BitVec 15) (sel : BitVec 1) (imm opc : Byte) : cmdRsv (rsv ++ sel ++ imm ++ opc) = rsv := by
  apply BitVec.eq_of_getLsbD_eq
  intro j hj
  have h1 : ¬ 17 + j < 8 := by omega
  have h2 : ¬ 17 + j - 8 < 8 := by omega
  have h3 : ¬ 17 + j - 8 - 8 < 1 := by omega
  have h4 : 17 + j - 8 - 8 - 1 = j := by omega
  simp only [cmdRsv, BitVec.getLsbD_extractLsb', BitVec.getLsbD_append, hj, decide_true, Bool.true_and, h1, if_false, h2, h3, h4]

/-- A command word is its four fields (R60). -/
theorem cmd_eq_fields (cmd : Word) : cmd = cmdRsv cmd ++ cmdSel cmd ++ cmdImm8 cmd ++ cmdOpc cmd := by
  apply BitVec.eq_of_getLsbD_eq
  intro j hj
  simp only [cmdOpc, cmdImm8, cmdSel, cmdRsv, BitVec.getLsbD_extractLsb', BitVec.getLsbD_append]
  split
  · next h => simp [h]
  · split
    · next h1 h2 => simp [h2, show 8 + (j - 8) = j by omega]
    · split
      · next h1 h2 h3 => simp [h3, show 16 + (j - 8 - 8) = j by omega]
      · next h1 h2 h3 => simp [show 17 + (j - 8 - 8 - 1) = j by omega, show j - 8 - 8 - 1 < 15 by omega]

/-- The fields of an encoded command (R60, R62). -/
theorem encode_fields (i : Instr) :
    cmdOpc (encode i) = opcode i ∧ cmdImm8 (encode i) = immField i ∧ cmdSel (encode i) = selField i ∧ cmdRsv (encode i) = 0 :=
  ⟨cmdOpc_fields _ _ _ _, cmdImm8_fields _ _ _ _, cmdSel_fields _ _ _ _, cmdRsv_fields _ _ _ _⟩

end Sys2Proof
end

