-- ==== Sys2Proof/Laws/State.lean ====
section
/-! SUPPORT. One lemma per field of State for each named update: `respond`, `reject`, `hardReset`. -/

namespace Sys2Proof.Machine

@[simp] theorem State.respond_params (s : State) (v : Lane) : (s.respond v).params = s.params := rfl
@[simp] theorem State.respond_keyValid (s : State) (v : Lane) : (s.respond v).keyValid = s.keyValid := rfl
@[simp] theorem State.respond_w (s : State) (v : Lane) : (s.respond v).w = s.w := rfl
@[simp] theorem State.respond_rk (s : State) (v : Lane) : (s.respond v).rk = s.rk := rfl
@[simp] theorem State.respond_drk (s : State) (v : Lane) : (s.respond v).drk = s.drk := rfl
@[simp] theorem State.respond_status (s : State) (v : Lane) : (s.respond v).status = 0x00 := rfl
@[simp] theorem State.respond_dout (s : State) (v : Lane) : (s.respond v).dout = v := rfl
@[simp] theorem State.respond_inbox (s : State) (v : Lane) : (s.respond v).inbox = s.inbox := rfl
@[simp] theorem State.respond_resets (s : State) (v : Lane) : (s.respond v).resets = s.resets := rfl

@[simp] theorem State.reject_params (s : State) (c : StatusCode) : (s.reject c).params = s.params := rfl
@[simp] theorem State.reject_keyValid (s : State) (c : StatusCode) : (s.reject c).keyValid = s.keyValid := rfl
@[simp] theorem State.reject_w (s : State) (c : StatusCode) : (s.reject c).w = s.w := rfl
@[simp] theorem State.reject_rk (s : State) (c : StatusCode) : (s.reject c).rk = s.rk := rfl
@[simp] theorem State.reject_drk (s : State) (c : StatusCode) : (s.reject c).drk = s.drk := rfl
@[simp] theorem State.reject_status (s : State) (c : StatusCode) : (s.reject c).status = c.code := rfl
@[simp] theorem State.reject_dout (s : State) (c : StatusCode) : (s.reject c).dout = 0 := rfl
@[simp] theorem State.reject_inbox (s : State) (c : StatusCode) : (s.reject c).inbox = s.inbox := rfl
@[simp] theorem State.reject_resets (s : State) (c : StatusCode) : (s.reject c).resets = s.resets := rfl

@[simp] theorem State.hardReset_params (s : State) : s.hardReset.params = s.params := rfl
@[simp] theorem State.hardReset_keyValid (s : State) : s.hardReset.keyValid = false := rfl
@[simp] theorem State.hardReset_status (s : State) : s.hardReset.status = 0x00 := rfl
@[simp] theorem State.hardReset_dout (s : State) : s.hardReset.dout = 0 := rfl
@[simp] theorem State.hardReset_inbox (s : State) : s.hardReset.inbox = s.inbox := rfl
@[simp] theorem State.hardReset_resets (s : State) : s.hardReset.resets = s.resets + 1 := rfl

/-- A hardware reset puts free values into the schedule storage but does not change its shape. -/
@[simp] theorem State.hardReset_w_length (s : State) : s.hardReset.w.length = s.w.length := by
  simp [State.hardReset]

@[simp] theorem State.hardReset_rk_length (s : State) : s.hardReset.rk.length = s.rk.length := by
  simp [State.hardReset]

@[simp] theorem State.hardReset_drk_length (s : State) : s.hardReset.drk.length = s.drk.length := by
  simp [State.hardReset]

/-- The four STATUS codes have four different values, all among 0 to 3 (R240). -/
theorem StatusCode.code_cases (c : StatusCode) :
    c.code = 0x00 ∨ c.code = 0x01 ∨ c.code = 0x02 ∨ c.code = 0x03 := by
  cases c <;> decide

theorem StatusCode.code_injective {c d : StatusCode} (h : c.code = d.code) : c = d := by
  cases c <;> cases d <;> first | rfl | exact absurd h (by decide)

/-- All that the KEY_VALID guard can do (R242). -/
theorem State.needKey_cases (s : State) (run : Host.Outcome State Fault Refusal) :
    (s.keyValid = true ∧ s.needKey run = run) ∨ (s.keyValid = false ∧ s.needKey run = .next (s.reject .errNoKey)) := by
  unfold State.needKey
  cases h : s.keyValid <;> simp

theorem State.needKey_valid {s : State} (h : s.keyValid = true) (run : Host.Outcome State Fault Refusal) :
    s.needKey run = run := by
  rw [State.needKey, if_pos h]

theorem State.needKey_invalid {s : State} (h : s.keyValid = false) (run : Host.Outcome State Fault Refusal) :
    s.needKey run = .next (s.reject .errNoKey) := by
  rw [State.needKey, if_neg (by simp [h])]

@[simp] theorem retire_next (rest : List Input) (t : State) :
    retire rest (.next t) = .next { t with inbox := rest } := rfl

/-- An answered request is one whose command answered, with the inbox moved on. -/
theorem retire_eq_next {rest : List Input} {o : Host.Outcome State Fault Refusal} {t : State} (h : retire rest o = .next t) :
    ∃ u, o = .next u ∧ t = { u with inbox := rest } := by
  cases o with
  | next u => exact ⟨u, rfl, by simpa [retire, eq_comm] using h⟩
  | fault r => exact nomatch r
  | refused r => simp [retire] at h

end Sys2Proof.Machine
end

