-- ==== Sys2Proof/Laws/Exec.lean ====
section
/-! SUPPORT. What a command and a step can do, each said once: every later proof about all commands cites these two inversion
lemmas and does not unfold `exec` or `step` again. -/

namespace Sys2Proof.Machine

@[simp] theorem exec_setkey (s : State) : exec .setkey s = execSetkey s := rfl
@[simp] theorem exec_encrypt (s : State) : exec .encrypt s = execEncrypt s := rfl
@[simp] theorem exec_decrypt (s : State) : exec .decrypt s = execDecrypt s := rfl
@[simp] theorem exec_rdrk (r : Nat) (sel : Sel) (s : State) : exec (.rdrk r sel) s = execRdrk r sel s := rfl
@[simp] theorem exec_kexpt (i : Nat) (s : State) : exec (.kexpt i) s = execKexpt i s := rfl

/-- All that SETKEY can do (R80). -/
theorem execSetkey_cases (s : State) :
    (s.params.path = .sw ∧ execSetkey s = .next
      { s with
        w := keyExpansion s.params.keySize.nk s.params.keySize.nr (keyOperand s.params.keySize s.din)
        keyValid := true, status := 0x00, dout := 0 }) ∨
    (s.params.path = .hw ∧ execSetkey s = .next
      { s with
        rk := hwExpand s.params.keySize (keyOperand s.params.keySize s.din)
        drk := deriveInverse s.params.keySize.nr (hwExpand s.params.keySize (keyOperand s.params.keySize s.din))
        keyValid := true, status := 0x00, dout := 0 }) := by
  cases h : s.params.path
  · exact .inl ⟨rfl, by simp only [execSetkey, h]; rfl⟩
  · exact .inr ⟨rfl, by simp only [execSetkey, h]; rfl⟩

/-- Every command but SETKEY ends in one response or one rejection, and in nothing else (R29, R241). -/
theorem exec_answers {i : Instr} (hi : i ≠ .setkey) (s : State) :
    (∃ v : Lane, exec i s = .next (s.respond v)) ∨ (∃ c : StatusCode, c ≠ .ok ∧ exec i s = .next (s.reject c)) := by
  cases i
  case setkey => exact absurd rfl hi
  case encrypt =>
    rw [exec_encrypt, execEncrypt, State.needKey]
    split
    · split <;> exact .inl ⟨_, rfl⟩
    · exact .inr ⟨.errNoKey, by decide, rfl⟩
  case decrypt =>
    rw [exec_decrypt, execDecrypt, State.needKey]
    split
    · split <;> exact .inl ⟨_, rfl⟩
    · exact .inr ⟨.errNoKey, by decide, rfl⟩
  case rdrk r sel =>
    rw [exec_rdrk, execRdrk.eq_def, State.needKey]
    split
    · split
      · exact .inr ⟨.errArg, by decide, rfl⟩
      · split
        · exact .inr ⟨.errArg, by decide, rfl⟩
        · split
          · exact .inl ⟨_, rfl⟩
          · split <;> exact .inl ⟨_, rfl⟩
    · exact .inr ⟨.errNoKey, by decide, rfl⟩
  case kexpt i =>
    rw [exec_kexpt, execKexpt]
    split
    · exact .inr ⟨.errArg, by decide, rfl⟩
    · exact .inl ⟨_, rfl⟩
  all_goals exact .inl ⟨_, rfl⟩

/-- All that a step can do: idle with nothing presented (R254), reset (R260, R262), reject an illegal word (R63), or take a
legal command (R48). -/
theorem step_cases {s t : State} (h : step s = .next t) :
    (s.inbox = [] ∧ t = s) ∨
    (∃ rest, (s.inbox = .reset :: rest ∨ ∃ cmd din, s.inbox = .resetDuring cmd din :: rest) ∧
      t = { s.hardReset with inbox := rest }) ∨
    (∃ cmd din rest e, s.inbox = .request cmd din :: rest ∧ decode cmd = .error e ∧
      t = { s.reject .errIllegal with inbox := rest }) ∨
    (∃ cmd din rest i u, s.inbox = .request cmd din :: rest ∧ decode cmd = .ok i ∧ exec i s = .next u ∧
      t = { u with inbox := rest }) := by
  unfold step at h
  split at h
  · next hb => exact .inl ⟨hb, by simpa [eq_comm] using h⟩
  · next rest hb =>
      obtain ⟨u, hu, rfl⟩ := retire_eq_next h
      cases hu
      exact .inr (.inl ⟨rest, .inl hb, rfl⟩)
  · next cmd din rest hb =>
      obtain ⟨u, hu, rfl⟩ := retire_eq_next h
      cases hu
      exact .inr (.inl ⟨rest, .inr ⟨cmd, din, hb⟩, rfl⟩)
  · next cmd din rest hb =>
      split at h
      · next i hd =>
          obtain ⟨u, hu, rfl⟩ := retire_eq_next h
          exact .inr (.inr (.inr ⟨cmd, din, rest, i, u, hb, hd, hu, rfl⟩))
      · next e hd =>
          obtain ⟨u, hu, rfl⟩ := retire_eq_next h
          cases hu
          exact .inr (.inr (.inl ⟨cmd, din, rest, e, hb, hd, rfl⟩))

/-- A transaction of a legal word runs its command on the presented DIN and leaves the inbox as it was (D1). -/
theorem issue_ok (s : State) {cmd : Word} {i : Instr} (din : Data) (h : decode cmd = .ok i) :
    issue s cmd din = retire s.inbox (exec i { s with inbox := .request cmd din :: s.inbox }) := by
  simp only [issue, step, h]

/-- A transaction of an illegal word changes STATUS and DOUT only (R63, R241). -/
theorem issue_error (s : State) {cmd : Word} {e : Illegal} (din : Data) (h : decode cmd = .error e) :
    issue s cmd din = .next { s with status := 0x01, dout := 0 } := by
  simp only [issue, step, h]
  rfl

/-- The data a command of a transaction reads is the transaction's DIN. -/
@[simp] theorem din_request (s : State) (cmd : Word) (d : Data) (rest : List Input) :
    ({ s with inbox := .request cmd d :: rest } : State).din = d := rfl

end Sys2Proof.Machine
end

