-- ==== Sys2Proof/Laws/Operands.lean ====
section
/-! SUPPORT. The byte view of a lane: reading a byte, a dword or a half of a lane made from such parts, two lanes with the
same bytes, and the loops of R19 unrolled. -/

namespace Sys2Proof.Machine

theorem getLsbD_byteAt {n : Nat} (v : BitVec n) (i j : Nat) :
    (byteAt v i).getLsbD j = (decide (j < 8) && v.getLsbD (8 * i + j)) := by
  simp [byteAt, BitVec.getLsbD_extractLsb']

/-- A byte of an XOR is the XOR of the bytes. -/
@[simp] theorem byteAt_xor {n : Nat} (x y : BitVec n) (i : Nat) : byteAt (x ^^^ y) i = byteAt x i ^^^ byteAt y i := by
  apply BitVec.eq_of_getLsbD_eq
  intro j hj
  simp only [getLsbD_byteAt, BitVec.getLsbD_xor, hj, decide_true, Bool.true_and]

theorem byteAt_append_zero {n : Nat} (hi : BitVec n) (lo : Byte) : byteAt (hi ++ lo) 0 = lo := by
  apply BitVec.eq_of_getLsbD_eq
  intro j hj
  simp only [getLsbD_byteAt, BitVec.getLsbD_append, hj, decide_true, Bool.true_and, Nat.mul_zero, Nat.zero_add, if_true]

theorem byteAt_append_succ {n : Nat} (hi : BitVec n) (lo : Byte) (i : Nat) : byteAt (hi ++ lo) (i + 1) = byteAt hi i := by
  apply BitVec.eq_of_getLsbD_eq
  intro j hj
  have h1 : ¬ 8 * (i + 1) + j < 8 := by omega
  have h2 : 8 * (i + 1) + j - 8 = 8 * i + j := by omega
  simp only [getLsbD_byteAt, BitVec.getLsbD_append, hj, decide_true, Bool.true_and, h1, if_false, h2]

theorem byteAt_self (b : Byte) : byteAt b 0 = b := by
  apply BitVec.eq_of_getLsbD_eq
  intro j hj
  simp only [getLsbD_byteAt, hj, decide_true, Bool.true_and, Nat.mul_zero, Nat.zero_add]

/-- Byte i of `lane(A)` is A[i] (R15, R178). -/
theorem byteAt_laneOfBytes (a : Nat → Byte) {i : Nat} (h : i < 16) : byteAt (laneOfBytes a) i = a i := by
  interval_cases i <;>
    (iterate 15 try refine (byteAt_append_succ _ _ _).trans ?_) <;>
    first | exact byteAt_append_zero _ _ | exact byteAt_self _

/-- Two lanes with the same 16 bytes are the same lane (R15). -/
theorem lane_ext {x y : Lane} (h : ∀ i < 16, byteAt x i = byteAt y i) : x = y := by
  apply BitVec.eq_of_getLsbD_eq
  intro j hj
  have hb := congrArg (fun b : Byte => b.getLsbD (j % 8)) (h (j / 8) (by omega))
  have hm : j % 8 < 8 := Nat.mod_lt _ (by decide)
  simpa only [getLsbD_byteAt, hm, decide_true, Bool.true_and, Nat.div_add_mod] using hb

/-- A lane is `lane(A)` of its own bytes. -/
@[simp] theorem laneOfBytes_byteAt (x : Lane) : laneOfBytes (byteAt x) = x :=
  lane_ext fun _ h => byteAt_laneOfBytes _ h

/-- `lane(A)` depends on the bytes 0 to 15 of A only. -/
theorem laneOfBytes_congr {a b : Nat → Byte} (h : ∀ i < 16, a i = b i) : laneOfBytes a = laneOfBytes b :=
  lane_ext fun i hi => by rw [byteAt_laneOfBytes _ hi, byteAt_laneOfBytes _ hi, h i hi]

/-- DOUT[0] of a one-byte result is the result and every other byte is zero (R65). -/
theorem byteAt_resultByte (b : Byte) {i : Nat} (_h : i < 16) : byteAt (resultByte b) i = if i = 0 then b else 0 := by
  apply BitVec.eq_of_getLsbD_eq
  intro j hj
  rw [getLsbD_byteAt, resultByte, BitVec.getLsbD_setWidth]
  by_cases h0 : i = 0
  · subst h0; simp [hj]; omega
  · have : 8 ≤ 8 * i + j := by omega
    simp [h0, BitVec.getLsbD_of_ge b _ this]

/-- DOUT[0..4) of a word result is the word, most significant byte first, and every other byte is zero (R65). -/
theorem byteAt_resultWord (v : Word) {i : Nat} (h : i < 16) :
    byteAt (resultWord v) i = if i < 4 then beByte v i else 0 := byteAt_laneOfBytes _ h

theorem getLsbD_dword (l : Lane) (j i : Nat) : (dword l j).getLsbD i = (decide (i < 32) && l.getLsbD (32 * j + i)) := by
  simp [dword, BitVec.getLsbD_extractLsb']

/-- A dword of an XOR is the XOR of the dwords. -/
@[simp] theorem dword_xor (x y : Lane) (j : Nat) : dword (x ^^^ y) j = dword x j ^^^ dword y j := by
  apply BitVec.eq_of_getLsbD_eq
  intro i hi
  simp only [getLsbD_dword, BitVec.getLsbD_xor, hi, decide_true, Bool.true_and]

/-- Byte b of dword j is byte 4j + b of the lane (R15, R43). -/
theorem byteAt_dword (l : Lane) (j : Nat) {b : Nat} (h : b < 4) : byteAt (dword l j) b = byteAt l (4 * j + b) := by
  apply BitVec.eq_of_getLsbD_eq
  intro i hi
  have h1 : 8 * b + i < 32 := by omega
  have h2 : 32 * j + (8 * b + i) = 8 * (4 * j + b) + i := by omega
  simp only [getLsbD_byteAt, getLsbD_dword, hi, decide_true, Bool.true_and, h1, h2]

theorem extract_append_low {n : Nat} (hi : BitVec n) (lo : Word) : (hi ++ lo).extractLsb' 0 32 = lo := by
  apply BitVec.eq_of_getLsbD_eq
  intro i h
  simp only [BitVec.getLsbD_extractLsb', BitVec.getLsbD_append, h, decide_true, Bool.true_and, Nat.zero_add, if_true]

theorem extract_append_high {n : Nat} (hi : BitVec n) (lo : Word) (k : Nat) :
    (hi ++ lo).extractLsb' (32 * (k + 1)) 32 = hi.extractLsb' (32 * k) 32 := by
  apply BitVec.eq_of_getLsbD_eq
  intro i h
  have h1 : ¬ 32 * (k + 1) + i < 32 := by omega
  have h2 : 32 * (k + 1) + i - 32 = 32 * k + i := by omega
  simp only [BitVec.getLsbD_extractLsb', BitVec.getLsbD_append, h, decide_true, Bool.true_and, h1, if_false, h2]

@[simp] theorem dword_laneOfDwords_zero (d0 d1 d2 d3 : Word) : dword (laneOfDwords d0 d1 d2 d3) 0 = d0 :=
  extract_append_low _ _

@[simp] theorem dword_laneOfDwords_one (d0 d1 d2 d3 : Word) : dword (laneOfDwords d0 d1 d2 d3) 1 = d1 :=
  (extract_append_high _ _ 0).trans (extract_append_low _ _)

@[simp] theorem dword_laneOfDwords_two (d0 d1 d2 d3 : Word) : dword (laneOfDwords d0 d1 d2 d3) 2 = d2 :=
  ((extract_append_high _ _ 1).trans (extract_append_high _ _ 0)).trans (extract_append_low _ _)

@[simp] theorem dword_laneOfDwords_three (d0 d1 d2 d3 : Word) : dword (laneOfDwords d0 d1 d2 d3) 3 = d3 := by
  refine ((extract_append_high _ _ 2).trans ((extract_append_high _ _ 1).trans (extract_append_high _ _ 0))).trans ?_
  apply BitVec.eq_of_getLsbD_eq
  intro i h
  simp only [BitVec.getLsbD_extractLsb', h, decide_true, Bool.true_and, Nat.mul_zero, Nat.zero_add]

/-- Two lanes with the same four dwords are the same lane (R15). -/
theorem lane_ext_dword {x y : Lane} (h : ∀ j < 4, dword x j = dword y j) : x = y := by
  refine lane_ext fun i hi => ?_
  have hb : i % 4 < 4 := Nat.mod_lt _ (by decide)
  have := congrArg (fun d : Word => byteAt d (i % 4)) (h (i / 4) (by omega))
  simpa only [byteAt_dword _ _ hb, Nat.div_add_mod] using this

/-- An upward loop whose bounds have met does nothing (R19). -/
theorem forUp_empty {α : Type} {lo hi : Nat} (body : Nat → α → α) (x : α) (h : hi < lo) : forUp lo hi body x = x := by
  have : hi + 1 - lo = 0 := by omega
  simp [forUp, this]

/-- The first turn of an upward loop (R19). -/
theorem forUp_first {α : Type} {lo hi : Nat} (body : Nat → α → α) (x : α) (h : lo ≤ hi) :
    forUp lo hi body x = forUp (lo + 1) hi body (body lo x) := by
  have : hi + 1 - lo = (hi + 1 - (lo + 1)) + 1 := by omega
  simp only [forUp, this, List.range'_succ, List.foldl_cons]

/-- The last turn of an upward loop (R19). -/
theorem forUp_last {α : Type} {lo hi : Nat} (body : Nat → α → α) (x : α) (h : lo ≤ hi + 1) :
    forUp lo (hi + 1) body x = body (hi + 1) (forUp lo hi body x) := by
  have h1 : hi + 1 + 1 - lo = (hi + 1 - lo) + 1 := by omega
  have h2 : lo + (hi + 1 - lo) = hi + 1 := by omega
  simp only [forUp, h1, List.range'_concat, List.foldl_append, List.foldl_cons, List.foldl_nil, Nat.one_mul, h2]

/-- What every turn of an upward loop keeps, the loop keeps. -/
theorem forUp_keeps {α : Type} (P : α → Prop) (lo hi : Nat) (body : Nat → α → α) (x : α) (h0 : P x)
    (h : ∀ i y, P y → P (body i y)) : P (forUp lo hi body x) := by
  unfold forUp
  induction List.range' lo (hi + 1 - lo) generalizing x with
  | nil => exact h0
  | cons i is ih => exact ih _ (h _ _ h0)

/-- A downward loop runs its lowest index last (R19). -/
theorem forDown_last {α : Type} {lo hi : Nat} (body : Nat → α → α) (x : α) (h : lo ≤ hi) :
    forDown hi lo body x = body lo (forDown hi (lo + 1) body x) := by
  have : hi + 1 - lo = (hi + 1 - (lo + 1)) + 1 := by omega
  simp only [forDown, this, List.range'_succ, List.foldr_cons]

/-- A downward loop whose bounds have met does nothing (R19). -/
theorem forDown_empty {α : Type} {lo hi : Nat} (body : Nat → α → α) (x : α) (h : hi < lo) : forDown hi lo body x = x := by
  have : hi + 1 - lo = 0 := by omega
  simp [forDown, this]

end Sys2Proof.Machine
end

