-- ==== Sys2Proof/Laws/PerInstr.lean ====
section
/-! SUPPORT. EncodeShape: for each command, the encoded word has RSV = 0, its own opcode of R62, and a zero IMM8 or SEL
wherever R63 requires zero. -/

namespace Sys2Proof.Laws.EncodeShape

/-- The encoded word of a command has the fields R62 and R63 ask for. -/
def Statement (i : Instr) : Prop :=
  cmdRsv (encode i) = 0 ∧ cmdOpc (encode i) = opcode i ∧
    (cmdImm8 (encode i) = 0 ∨ opcode i = 0x04 ∨ opcode i = 0x25 ∨ opcode i = 0x34) ∧
    (cmdSel (encode i) = 0 ∨ opcode i = 0x04)

/-- A command whose fields are zero, or which has the opcode that may use them, has the shape. -/
theorem of_fields {i : Instr} (hi : immField i = 0 ∨ opcode i = 0x04 ∨ opcode i = 0x25 ∨ opcode i = 0x34)
    (hs : selField i = 0 ∨ opcode i = 0x04) : Statement i := by
  obtain ⟨h1, h2, h3, h4⟩ := encode_fields i
  exact ⟨h4, h1, h2 ▸ hi, h3 ▸ hs⟩

theorem setkey : Statement .setkey := of_fields (.inl rfl) (.inl rfl)
theorem encrypt : Statement .encrypt := of_fields (.inl rfl) (.inl rfl)
theorem decrypt : Statement .decrypt := of_fields (.inl rfl) (.inl rfl)
theorem rdrk (r : Nat) (sel : Sel) : Statement (.rdrk r sel) := of_fields (.inr (.inl rfl)) (.inr rfl)
theorem subbytes : Statement .subbytes := of_fields (.inl rfl) (.inl rfl)
theorem invsubbytes : Statement .invsubbytes := of_fields (.inl rfl) (.inl rfl)
theorem shiftrows : Statement .shiftrows := of_fields (.inl rfl) (.inl rfl)
theorem invshiftrows : Statement .invshiftrows := of_fields (.inl rfl) (.inl rfl)
theorem mixcolumns : Statement .mixcolumns := of_fields (.inl rfl) (.inl rfl)
theorem invmixcolumns : Statement .invmixcolumns := of_fields (.inl rfl) (.inl rfl)
theorem addroundkey : Statement .addroundkey := of_fields (.inl rfl) (.inl rfl)
theorem aesenc : Statement .aesenc := of_fields (.inl rfl) (.inl rfl)
theorem aesenclast : Statement .aesenclast := of_fields (.inl rfl) (.inl rfl)
theorem aesdec : Statement .aesdec := of_fields (.inl rfl) (.inl rfl)
theorem aesdeclast : Statement .aesdeclast := of_fields (.inl rfl) (.inl rfl)
theorem aesimc : Statement .aesimc := of_fields (.inl rfl) (.inl rfl)
theorem aeskeygenassist (imm8 : Byte) : Statement (.aeskeygenassist imm8) := of_fields (.inr (.inr (.inl rfl))) (.inl rfl)
theorem xtime : Statement .xtime := of_fields (.inl rfl) (.inl rfl)
theorem gfmul : Statement .gfmul := of_fields (.inl rfl) (.inl rfl)
theorem subword : Statement .subword := of_fields (.inl rfl) (.inl rfl)
theorem rotword : Statement .rotword := of_fields (.inl rfl) (.inl rfl)
theorem kexpt (i : Nat) : Statement (.kexpt i) := of_fields (.inr (.inr (.inr rfl))) (.inl rfl)

end Sys2Proof.Laws.EncodeShape
end

