-- ==== Sys2Proof/Laws/Schedule.lean ====
section
/-! SUPPORT. The lengths of the schedules (R11, R133, R180, R190). -/

namespace Sys2Proof.Machine

/-- A loop each turn of which adds `c` entries to a list adds `c` for each index. -/
theorem forUp_length {α : Type} (c lo hi : Nat) (body : Nat → List α → List α)
    (h : ∀ i y, (body i y).length = y.length + c) (x : List α) :
    (forUp lo hi body x).length = x.length + c * (hi + 1 - lo) := by
  unfold forUp
  generalize hi + 1 - lo = n
  induction n generalizing lo x with
  | zero => simp
  | succ n ih => simp [List.range'_succ, ih, h, Nat.mul_succ]; omega

/-- KeyExpansion gives 4·(Nr+1) words (R133). -/
@[simp] theorem keyExpansion_length (k : KeySize) (key : Data) : (keyExpansion k.nk k.nr key).length = 4 * (k.nr + 1) := by
  rw [keyExpansion, forUp_length 1 _ _ (expandWord k.nk) (fun i y => by simp [expandWord])]
  cases k <;> simp [keyWords]

/-- An iteration of Expand192 keeps the 13 entries of the partial RK (R185). -/
theorem rolling_length (n : Nat) (q : Rolling) (h : q.rk.length = 13) : (rollingWrite n (rollingTurn n q)).rk.length = 13 := by
  unfold rollingWrite
  split
  · simpa [rollingTurn] using h
  · split <;> simpa [rollingTurn] using h

/-- HwExpand gives Nr+1 lanes (R180). -/
@[simp] theorem hwExpand_length (k : KeySize) (key : Data) : (hwExpand k key).length = k.nr + 1 := by
  cases k
  · simp [hwExpand, expand128, forUp_length 1 _ _ expand128Turn (fun i y => by simp [expand128Turn])]
  · rw [hwExpand, expand192, expand192With, KeySize.nr_k192]
    exact forUp_keeps (fun q : Rolling => q.rk.length = 13) 1 8 _ _ (by simp) rolling_length
  · rw [hwExpand, expand256, expand256With, forUp_length 1 _ _ (expand256Turn 0x00) (fun i y => by simp [expand256Turn])]
    simp

/-- DeriveInverse gives Nr+1 lanes (R190). -/
@[simp] theorem deriveInverse_length (nr : Nat) (rk : List Lane) : (deriveInverse nr rk).length = nr + 1 :=
  forUp_keeps (fun drk : List Lane => drk.length = nr + 1) _ _ _ _ (by simp) (fun _ _ h => by simpa using h)

end Sys2Proof.Machine
end

