-- ==== Sys2Proof/Tests/Slice0.lean ====
section
/-! SUPPORT. The model's own tests. Every expected value is from spec/95_test_vectors.md or from the example of the rule it
tests; a block is written as the spec writes it, byte 0 first (R14). The second half shows, for each statement that has
hypotheses, a state and operands that meet them. -/

namespace Sys2Proof.Tests

open Sys2Proof Sys2Proof.Machine

-- One test after the other: many kernel evaluations side by side cost memory and gain nothing.
set_option Elab.async false

/-- A 16-byte value from the spec's hex string, byte 0 first (R14). -/
def blk (hex : Nat) : Lane := laneOfBytes fun i => BitVec.ofNat 8 (hex / 256 ^ (15 - i))

/-- DIN with S and K from the spec's hex strings. -/
def dinOf (s k : Nat) : Data := blk k ++ blk s

/-- A 4-byte operand at DIN[0..4), zeros above. -/
def dinWord (hex : Nat) : Data := dinOf (hex * 256 ^ 12) 0

/-- A fresh instance with this DIN presented. -/
def fresh (k : KeySize) (p : Path) (din : Data) : State := { State.fresh ⟨k, p⟩ with inbox := [.request 0 din] }

/-- The key 000102...1f of §2.8: an instance uses its first 4·Nk bytes. -/
def keyUp : Data := dinOf 0x000102030405060708090a0b0c0d0e0f 0x101112131415161718191a1b1c1d1e1f

/-- An instance with the schedule of that key loaded and this DIN presented. -/
def keyed (k : KeySize) (p : Path) (din : Data) : State :=
  match p with
  | .sw => { fresh k p din with keyValid := true, w := keyExpansion k.nk k.nr (keyOperand k keyUp) }
  | .hw =>
    { fresh k p din with
      keyValid := true, rk := hwExpand k (keyOperand k keyUp)
      drk := deriveInverse k.nr (hwExpand k (keyOperand k keyUp)) }

/-- STATUS and DOUT of a response. -/
def answer : Host.Outcome State Fault Refusal → Option (Byte × Lane)
  | .next t => some (t.status, t.dout)
  | .fault _ => none
  | .refused _ => none

/-- The state a command leaves, or the state before it if it left none. -/
def after (o : Host.Outcome State Fault Refusal) (s : State) : State :=
  match o with
  | .next t => t
  | .fault _ => s
  | .refused _ => s

/-- The plaintext of vectors A to C. -/
def plain : Nat := 0x00112233445566778899aabbccddeeff

/-- The operand 000102...0f of §2.3 and §2.4. -/
def count : Nat := 0x000102030405060708090a0b0c0d0e0f

/-! ### WellFormed: each check refuses an ill-formed term -/

theorem test_wellFormed_refuses_a_round_index_above_imm8 : (Instr.rdrk 256 .fwd).wellFormed = false := by decide
theorem test_wellFormed_refuses_a_word_index_above_imm8 : (Instr.kexpt 256).wellFormed = false := by decide

/-! ### Decoding: each row of R68, its word written out -/

theorem test_decode_setkey : decode 0b00000000000000000000000000000001 = .ok .setkey := by decide
theorem test_decode_encrypt : decode 0b00000000000000000000000000000010 = .ok .encrypt := by decide
theorem test_decode_decrypt : decode 0b00000000000000000000000000000011 = .ok .decrypt := by decide
theorem test_decode_rdrk_fwd : decode 0b00000000000000001100100000000100 = .ok (.rdrk 200 .fwd) := by decide
theorem test_decode_rdrk_dec : decode 0b00000000000000010000101000000100 = .ok (.rdrk 10 .dec) := by decide
theorem test_decode_subbytes : decode 0b00000000000000000000000000010000 = .ok .subbytes := by decide
theorem test_decode_invsubbytes : decode 0b00000000000000000000000000010001 = .ok .invsubbytes := by decide
theorem test_decode_shiftrows : decode 0b00000000000000000000000000010010 = .ok .shiftrows := by decide
theorem test_decode_invshiftrows : decode 0b00000000000000000000000000010011 = .ok .invshiftrows := by decide
theorem test_decode_mixcolumns : decode 0b00000000000000000000000000010100 = .ok .mixcolumns := by decide
theorem test_decode_invmixcolumns : decode 0b00000000000000000000000000010101 = .ok .invmixcolumns := by decide
theorem test_decode_addroundkey : decode 0b00000000000000000000000000010110 = .ok .addroundkey := by decide
theorem test_decode_aesenc : decode 0b00000000000000000000000000100000 = .ok .aesenc := by decide
theorem test_decode_aesenclast : decode 0b00000000000000000000000000100001 = .ok .aesenclast := by decide
theorem test_decode_aesdec : decode 0b00000000000000000000000000100010 = .ok .aesdec := by decide
theorem test_decode_aesdeclast : decode 0b00000000000000000000000000100011 = .ok .aesdeclast := by decide
theorem test_decode_aesimc : decode 0b00000000000000000000000000100100 = .ok .aesimc := by decide
theorem test_decode_aeskeygenassist : decode 0b00000000000000001111111100100101 = .ok (.aeskeygenassist 0xFF) := by decide
theorem test_decode_xtime : decode 0b00000000000000000000000000110000 = .ok .xtime := by decide
theorem test_decode_gfmul : decode 0b00000000000000000000000000110001 = .ok .gfmul := by decide
theorem test_decode_subword : decode 0b00000000000000000000000000110010 = .ok .subword := by decide
theorem test_decode_rotword : decode 0b00000000000000000000000000110011 = .ok .rotword := by decide
theorem test_decode_kexpt : decode 0b00000000000000000010101100110100 = .ok (.kexpt 43) := by decide

/-- Rows 1 to 13 of §2.8: each kind of illegal word, refused by its own name. -/
theorem test_decode_refuses_by_name :
    decode 0x00000000 = .error .unassignedOpcode ∧ decode 0x00000005 = .error .unassignedOpcode ∧
    decode 0x00000017 = .error .unassignedOpcode ∧ decode 0x00000026 = .error .unassignedOpcode ∧
    decode 0x00000035 = .error .unassignedOpcode ∧ decode 0x000000FF = .error .unassignedOpcode ∧
    decode 0x00020002 = .error .reservedBits ∧ decode 0x80000010 = .error .reservedBits ∧
    decode 0x00000102 = .error .immediateNotZero ∧ decode 0x00000101 = .error .immediateNotZero ∧
    decode 0x00010002 = .error .selectNotZero ∧ decode 0x00010025 = .error .selectNotZero ∧
    decode 0x00010034 = .error .selectNotZero := by decide

theorem test_decodeTableWord : decodeTableWord 32 0x00010A04 = some (.rdrk 10 .dec) ∧ decodeTableWord 32 0 = none := by decide

/-! ### Commands -/

/-- §2.5, vector A's key on a SW instance: W[4] and W[43]. -/
theorem test_setkey_sw :
    let t := after (exec .setkey (fresh .k128 .sw keyUp)) State.reset
    t.keyValid = true ∧ t.w.length = 44 ∧ t.w.getD 4 0 = 0xd6aa74fd ∧ t.w.getD 43 0 = 0x4d2b30c5 := by decide +kernel

/-- §2.5, vector B's key on a HW instance: RK[5], RK[12] and DRK[1]. -/
theorem test_setkey_hw :
    let t := after (exec .setkey (fresh .k192 .hw keyUp)) State.reset
    t.keyValid = true ∧ t.rk.getD 5 0 = blk 0x2ab54bb43a02f8f662e3a95d66410c08 ∧
    t.rk.getD 12 0 = blk 0xa4970a331a78dc09c418c271e3a41d5d ∧
    t.drk.getD 1 0 = blk 0xd6bebd0dc209ea494db073803e021bb9 := by decide +kernel

/-- Vectors A to C, on one path or the other. -/
theorem test_encrypt_vectors :
    answer (exec .encrypt (keyed .k128 .sw (dinOf plain 0))) = some (0x00, blk 0x69c4e0d86a7b0430d8cdb78070b4c55a) ∧
    answer (exec .encrypt (keyed .k192 .hw (dinOf plain 0))) = some (0x00, blk 0xdda97ca4864cdfe06eaf70a0ec0d7191) ∧
    answer (exec .encrypt (keyed .k256 .hw (dinOf plain 0))) = some (0x00, blk 0x8ea2b7ca516745bfeafc49904b496089) := by
  decide +kernel

theorem test_decrypt_vectors :
    answer (exec .decrypt (keyed .k128 .hw (dinOf 0x69c4e0d86a7b0430d8cdb78070b4c55a 0))) = some (0x00, blk plain) ∧
    answer (exec .decrypt (keyed .k192 .sw (dinOf 0xdda97ca4864cdfe06eaf70a0ec0d7191 0))) = some (0x00, blk plain) := by
  decide +kernel

/-- Rows 19, 20, 23 and 22 of §2.8, and DRK[9] of P1. -/
theorem test_rdrk_answers :
    answer (exec (.rdrk 11 .fwd) (keyed .k128 .sw 0)) = some (0x03, 0) ∧
    answer (exec (.rdrk 10 .fwd) (keyed .k128 .sw 0)) = some (0x00, blk 0x13111d7fe3944a17f307a78b4d2b30c5) ∧
    answer (exec (.rdrk 0 .dec) (keyed .k128 .hw 0)) = some (0x00, blk 0x13111d7fe3944a17f307a78b4d2b30c5) ∧
    answer (exec (.rdrk 9 .dec) (keyed .k128 .hw 0)) = some (0x00, blk 0x8c56dff0825dd3f9805ad3fc8659d7fd) ∧
    answer (exec (.rdrk 0 .dec) (keyed .k128 .sw 0)) = some (0x03, 0) := by decide +kernel

/-- Rows 15 to 18 of §2.8: without a key, and before the range is looked at. -/
theorem test_no_key :
    answer (exec .encrypt (fresh .k128 .hw 0)) = some (0x02, 0) ∧ answer (exec .decrypt (fresh .k128 .hw 0)) = some (0x02, 0) ∧
    answer (exec (.rdrk 11 .fwd) (fresh .k128 .hw 0)) = some (0x02, 0) := by decide +kernel

theorem test_subbytes :
    answer (exec .subbytes (fresh .k128 .sw (dinOf count plain))) = some (0x00, blk 0x637c777bf26b6fc53001672bfed7ab76) := by
  decide +kernel
theorem test_invsubbytes :
    answer (exec .invsubbytes (fresh .k128 .sw (dinOf plain 0))) = some (0x00, blk 0x52e3946686edd30297f962fe27c9997d) := by
  decide +kernel
theorem test_shiftrows :
    answer (exec .shiftrows (fresh .k128 .sw (dinOf count 0))) = some (0x00, blk 0x00050a0f04090e03080d02070c01060b) := by
  decide +kernel
theorem test_invshiftrows :
    answer (exec .invshiftrows (fresh .k128 .sw (dinOf count 0))) = some (0x00, blk 0x000d0a0704010e0b0805020f0c090603) := by
  decide +kernel
theorem test_mixcolumns :
    answer (exec .mixcolumns (fresh .k128 .sw (dinOf 0xdb135345f20a225c01010101c6c6c6c6 0))) =
      some (0x00, blk 0x8e4da1bc9fdc589d01010101c6c6c6c6) := by decide +kernel
theorem test_invmixcolumns :
    answer (exec .invmixcolumns (fresh .k128 .sw (dinOf 0xdb135345f20a225c01010101c6c6c6c6 0))) =
      some (0x00, blk 0x32a41d55aec3698201010101c6c6c6c6) := by decide +kernel
theorem test_addroundkey :
    answer (exec .addroundkey (fresh .k128 .sw (dinOf plain count))) = some (0x00, blk 0x00102030405060708090a0b0c0d0e0f0) := by
  decide +kernel
theorem test_aesenc :
    answer (exec .aesenc (fresh .k128 .sw (dinOf plain count))) = some (0x00, blk 0x6378e4daf062fd71a50f36ffdee684ac) := by
  decide +kernel
theorem test_aesenclast :
    answer (exec .aesenclast (fresh .k128 .sw (dinOf plain count))) = some (0x00, blk 0x63fdae151feb2ec4ccc899fe478f3de5) := by
  decide +kernel
theorem test_aesdec :
    answer (exec .aesdec (fresh .k128 .sw (dinOf plain count))) = some (0x00, blk 0xdde602c226743f6f00073ca86ff44fbf) := by
  decide +kernel
theorem test_aesdeclast :
    answer (exec .aesdeclast (fresh .k128 .sw (dinOf plain count))) = some (0x00, blk 0x52c8600182e69ff99fe49e762bf4dd69) := by
  decide +kernel
/-- Log entry 15, by hand from R151 and R153: with S all 00 and K all 63, AESENCLAST gives 63 ⊕ 63 = 00 in each byte, and
AESDECLAST of that gives inv_sbox[00] ⊕ 63 = 52 ⊕ 63 = 31, not S. -/
theorem test_aesdeclast_does_not_undo_aesenclast :
    let k := blk 0x63636363636363636363636363636363
    aesdeclast (aesenclast 0 k) k = blk 0x31313131313131313131313131313131 := by decide +kernel
theorem test_aesimc :
    answer (exec .aesimc (fresh .k128 .sw (dinOf 0xb692cf0b643dbdf1be9bc5006830b3fe 0))) =
      some (0x00, blk 0xa0db02992286d160a2dc029c2485d561) := by decide +kernel
theorem test_aeskeygenassist_first :
    answer (exec (.aeskeygenassist 0x01) (fresh .k128 .sw (dinOf count 0))) =
      some (0x00, blk 0xf26b6fc56a6fc5f2fed7ab76d6ab76fe) := by decide +kernel
theorem test_aeskeygenassist_largest_imm8 :
    answer (exec (.aeskeygenassist 0xFF) (fresh .k128 .sw (dinOf 0x0c0d0e0f0c0d0e0f0c0d0e0f0c0d0e0f 0))) =
      some (0x00, blk 0xfed7ab7628ab76fefed7ab7628ab76fe) := by decide +kernel

/-- XTIME of 80, the reduction case, with every unused DIN byte set (§2.1). -/
theorem test_xtime :
    answer (exec .xtime (fresh .k128 .sw (dinOf 0x80ffffffffffffffffffffffffffffff (2 ^ 128 - 1)))) = some (0x00, 0x1b) := by
  decide +kernel
theorem test_gfmul :
    answer (exec .gfmul (fresh .k128 .sw (dinOf 0x5783ffffffffffffffffffffffffffff 0))) = some (0x00, 0xc1) := by decide +kernel

/-- C11: gf_mul(1, 2) is 2; the rejected bit order would give 0x40. -/
theorem test_gfmul_bit_order : gfMul 0x01 0x02 = 0x02 ∧ gfMul 0xff 0xff = 0x13 := by decide +kernel
theorem test_subword :
    answer (exec .subword (fresh .k128 .sw (dinWord 0x0d0e0f0c))) = some (0x00, blk 0xd7ab76fe000000000000000000000000) := by
  decide +kernel
theorem test_rotword :
    answer (exec .rotword (fresh .k128 .sw (dinWord 0x12345678))) = some (0x00, blk 0x34567812000000000000000000000000) := by
  decide +kernel

/-- §2.2: the three cases of T. -/
theorem test_kexpt_cases :
    answer (exec (.kexpt 4) (fresh .k128 .sw (dinWord 0x0c0d0e0f))) = some (0x00, blk 0xd6ab76fe000000000000000000000000) ∧
    answer (exec (.kexpt 10) (fresh .k192 .sw (dinWord 0x5847f0fa))) = some (0x00, blk 0x5847f0fa000000000000000000000000) ∧
    answer (exec (.kexpt 12) (fresh .k256 .sw (dinWord 0xa572c09c))) = some (0x00, blk 0x0640bade000000000000000000000000) := by
  decide +kernel

/-- §2.2: the ends of the legal range. -/
theorem test_kexpt_range :
    answer (exec (.kexpt 3) (fresh .k128 .sw (dinWord 0x0c0d0e0f))) = some (0x03, 0) ∧
    answer (exec (.kexpt 43) (fresh .k128 .sw (dinWord 0x0c0d0e0f))) = some (0x00, blk 0x0c0d0e0f000000000000000000000000) ∧
    answer (exec (.kexpt 44) (fresh .k128 .sw (dinWord 0x0c0d0e0f))) = some (0x03, 0) ∧
    answer (exec (.kexpt 44) (fresh .k256 .sw (dinWord 0x0c0d0e0f))) = some (0x00, blk 0xfed7ab76000000000000000000000000) := by
  decide +kernel

/-! ### The step, the inputs, the assembler -/

/-- The first command after reset is the word put there: SUBBYTES of 16 zero bytes. -/
theorem test_step_runs_the_fetched_word :
    answer (step (State.reset.withFetchWord 32 0x10)) = some (0x00, blk 0x63636363636363636363636363636363) ∧
    answer (step (State.reset.withFetchWord 32 0x02)) = some (0x02, 0) ∧
    answer (step (State.reset.withFetchWord 32 0x00)) = some (0x01, 0) := by decide +kernel

/-- P2, row 11 of §2.8: an illegal SETKEY loads no key. -/
theorem test_illegal_setkey_loads_no_key :
    issue (fresh .k192 .sw keyUp) 0x00000101 keyUp = .next { fresh .k192 .sw keyUp with status := 0x01 } :=
  issue_error _ _ (show decode 0x00000101 = .error .immediateNotZero by decide)

/-- A reset input clears KEY_VALID and leaves the parameters (R260). -/
theorem test_reset_input :
    let t := after (step { keyed .k256 .sw 0 with inbox := [.resetDuring 0x00000001 keyUp], status := 0x03 }) State.reset
    t.keyValid = false ∧ t.status = 0x00 ∧ t.params = ⟨.k256, .sw⟩ ∧ t.inbox = [] ∧ t.w.length = 60 := by decide +kernel

/-- The two examples of R69, and a short operand that fills its field's first bytes. -/
theorem test_assembler_examples :
    assemble .k128 "RDRK 10, dec" = some (.request 0x00010A04 0) ∧
    assemble .k128 "AESKEYGENASSIST s=000102030405060708090a0b0c0d0e0f, 0x01" = some (.request 0x00000125 (dinOf count 0)) ∧
    assemble .k128 "KEXPT x=0c0d, 44 ; out of range" = some (.request 0x00002C34 (dinWord 0x0c0d0000)) := by decide +kernel

/-- Lines R69 gives no form for: an operand longer than its field, and an immediate above 255. -/
theorem test_assembler_refuses :
    assemble .k128 "SETKEY key=000102030405060708090a0b0c0d0e0f10" = none ∧ assemble .k128 "RDRK 256, fwd" = none := by
  decide +kernel

/-- The S-box rule of R216 on the byte whose inverse R215 names: 0x53 and 0xca. -/
theorem test_sbox_example : sbox 0x53 = 0xed ∧ gfMul 0x53 0xca = 0x01 ∧ invSbox 0xed = 0x53 := by decide +kernel

/-! ### Witnesses: states and operands that meet the hypotheses of the statements -/

theorem witness_DecodeOfEncodeIsTheCommand : (Instr.rdrk 255 .dec).wellFormed = true ∧ (Instr.kexpt 255).wellFormed = true := by
  decide

theorem witness_EncodeOfDecodeIsTheWord : decode 0x0001FF04 = .ok (.rdrk 255 .dec) := by decide

theorem witness_LegalWordsAreThoseOfR63 : ∀ i : Instr, decode 0x00020002 ≠ .ok i := by
  intro i h
  have hd : decode 0x00020002 = .error .reservedBits := by decide
  rw [hd] at h
  cases h

/-- One word for each clause of R67, at the ends of its ranges. -/
theorem witness_ReservedWordsAreRejected :
    (0x00000100 : Word).toNat % 256 = 0x00 ∧
    (0x05 ≤ (0x00000005 : Word).toNat % 256 ∧ (0x0000000F : Word).toNat % 256 ≤ 0x0F) ∧
    (0x17 ≤ (0x00000017 : Word).toNat % 256 ∧ (0x0000001F : Word).toNat % 256 ≤ 0x1F) ∧
    (0x26 ≤ (0x00000026 : Word).toNat % 256 ∧ (0x0000002F : Word).toNat % 256 ≤ 0x2F) ∧
    0x35 ≤ (0x00000035 : Word).toNat % 256 ∧ 0x35 ≤ (0x000000FF : Word).toNat % 256 ∧
    (0x00020002 : Word).toNat / 2 ^ 17 ≠ 0 ∧ (0x80000010 : Word).toNat / 2 ^ 17 ≠ 0 ∧
    (0x00000102 : Word).toNat / 2 ^ 8 % 256 ≠ 0 ∧ (0x00010025 : Word).toNat / 2 ^ 16 % 2 ≠ 0 := by decide

theorem witness_MatchMaskRowsAgreeWithTheDecoder :
    decode 0x00010A04 = .ok (.rdrk 10 .dec) ∧ (0x0001FF04 : Word) &&& rowMask (.rdrk 0 .fwd) = rowMatch (.rdrk 0 .fwd) := by
  decide

theorem witness_AssembledLinesAreLegalCommands :
    assemble .k256 "GFMUL a=57, b=83" = some (.request 0x00000031 (dinOf 0x57830000000000000000000000000000 0)) := by
  decide +kernel

theorem witness_StepRunsTheDecodedCommand :
    (State.reset.withFetchWord 32 0x10).inbox = .request 0x00000010 0 :: [] ∧ decode 0x00000010 = .ok .subbytes := by decide

theorem witness_IdleStepKeepsAllState : State.reset.inbox = [] := by decide

theorem witness_KeyBitsIsFixedAndAnyOtherIsRefused :
    ((0 : Nat) ≠ 128 ∧ (0 : Nat) ≠ 192 ∧ (0 : Nat) ≠ 256) ∧ step State.reset = .next State.reset := by
  exact ⟨by decide, rfl⟩

/-- A key is loaded in it and the invariant holds in it, on both paths and for every key size. -/
theorem keyed_inv (k : KeySize) (p : Path) (din : Data) : (keyed k p din).Inv := by
  cases p
  · exact ⟨⟨keyExpansion_length k _, rfl, rfl⟩, ⟨.inl rfl, fun h => absurd rfl h⟩, fun _ => ⟨keyUp, rfl⟩⟩
  · exact ⟨⟨rfl, hwExpand_length k _, deriveInverse_length _ _⟩, ⟨.inl rfl, fun h => absurd rfl h⟩, fun _ => ⟨keyUp, rfl, rfl⟩⟩

theorem witness_EveryStepKeepsTheInvariant :
    (keyed .k256 .hw plain).Inv ∧ ∃ t : State, step (keyed .k256 .hw plain) = .next t ∧ t.status = 0x01 :=
  ⟨keyed_inv .k256 .hw plain, _, rfl, rfl⟩

theorem witness_OnlySetkeyWritesTheSchedule :
    Instr.subbytes ≠ .setkey ∧ ∃ t : State, exec .subbytes (keyed .k128 .sw plain) = .next t ∧ t.keyValid = true :=
  ⟨by decide, _, rfl, rfl⟩

/-- A command run with a key loaded; a reset that takes the key away, between commands and during one; no key. -/
theorem witness_KeyValidIsSetBySetkeyAndClearedByReset :
    (∃ t : State, exec .xtime (keyed .k128 .sw 0) = .next t ∧ (keyed .k128 .sw 0).keyValid = true) ∧
    (∃ t : State, step { keyed .k128 .hw 0 with inbox := [.reset] } = .next t ∧ t.keyValid = false) ∧
    (∃ t : State, step { keyed .k192 .sw 0 with inbox := [.resetDuring 1 keyUp] } = .next t ∧ t.keyValid = false) ∧
    State.reset.keyValid = false :=
  ⟨⟨_, rfl, rfl⟩, ⟨_, rfl, rfl⟩, ⟨_, rfl, rfl⟩, rfl⟩

theorem witness_RejectionChangesStatusAndDoutOnly :
    ∃ t : State, issue (keyed .k128 .sw 0) 0x00000000 plain = .next t ∧ t.status ≠ 0x00 :=
  ⟨_, issue_error _ _ (show decode 0x00000000 = .error .unassignedOpcode by decide), by decide⟩

/-- ERR_NOKEY given, and with a key not given. -/
theorem witness_NoKeyErrorExactlyWithoutAKey :
    answer (issue State.reset 0x0001FF04 0) = some (0x02, 0) ∧ answer (issue (keyed .k128 .hw 0) 0x00010A04 0) ≠ some (0x02, 0) := by
  decide +kernel

/-- Each clause of ERR_ARG on its first value, and the last value before it. -/
theorem witness_ArgErrorExactlyOutOfRange :
    answer (issue (keyed .k256 .hw 0) 0x00000F04 0) = some (0x03, 0) ∧ answer (issue (keyed .k256 .hw 0) 0x00000E04 0) ≠ some (0x03, 0) ∧
    answer (issue (keyed .k192 .sw 0) 0x00010004 0) = some (0x03, 0) ∧
    answer (issue (fresh .k192 .sw 0) 0x00000534 0) = some (0x03, 0) ∧ answer (issue (fresh .k192 .sw 0) 0x00000634 0) ≠ some (0x03, 0) ∧
    answer (issue (fresh .k192 .sw 0) 0x00003334 0) ≠ some (0x03, 0) ∧ answer (issue (fresh .k192 .sw 0) 0x00003434 0) = some (0x03, 0) := by
  decide +kernel

/-- Different DINs that agree where the command reads: the key of a 192-bit instance, one byte, and nothing at all. -/
theorem witness_UnusedDinBytesAreIgnored :
    (decode 0x00000001 = .ok .setkey ∧ dinUsed .k192 .setkey = 24 ∧ keyUp ≠ keyUp ||| ((0xFF : Data) <<< 192) ∧
      ∀ b : Nat, b < 24 → byteAt keyUp b = byteAt (keyUp ||| ((0xFF : Data) <<< 192)) b) ∧
    (decode 0x00000030 = .ok .xtime ∧ ∀ b : Nat, b < dinUsed .k128 .xtime → byteAt (0x57 : Data) b = byteAt (0xFF57 : Data) b) ∧
    (decode 0x00000004 = .ok (.rdrk 0 .fwd) ∧ dinUsed .k128 (.rdrk 0 .fwd) = 0) := by decide +kernel

/-- Two different states of one host's view: the schedule storage that no key has filled, and the array a path has not. -/
theorem witness_StaleScheduleIsNeverSeen :
    State.reset.SameToHost { State.reset with rk := [1, 2], drk := [3] } ∧
    (keyed .k128 .hw plain).SameToHost { keyed .k128 .hw plain with w := [7], resets := 5 } :=
  ⟨⟨rfl, rfl, rfl, rfl, rfl, fun _ _ => rfl, fun h => absurd h (by decide), fun h => absurd h (by decide)⟩,
    ⟨rfl, rfl, rfl, rfl, rfl, fun _ h => absurd h (by decide), fun _ _ => rfl, fun _ _ => rfl⟩⟩

/-- One state with a key loaded and one without. -/
theorem witness_RekeyingLeavesNoTraceOfTheOldKey :
    (keyed .k192 .sw plain).params = (fresh .k192 .sw plain).params ∧ (keyed .k192 .sw plain).inbox = (fresh .k192 .sw plain).inbox ∧
    (keyed .k192 .sw plain).keyValid ≠ (fresh .k192 .sw plain).keyValid :=
  ⟨rfl, rfl, by decide⟩

theorem witness_OtherInstancesAreUntouched :
    ∃ sys : List State, stepInstance 1 [fresh .k128 .sw 0, keyed .k256 .hw plain, State.reset] = .next sys ∧ (0 : Nat) ≠ 1 ∧
      [fresh .k128 .sw 0, keyed .k256 .hw plain, State.reset][1]? = some (keyed .k256 .hw plain) :=
  ⟨_, rfl, by decide, rfl⟩

/-- The two clauses over i meet at Nk: 0, Nk−1 | Nk, 4·(Nr+1)−1. -/
theorem witness_SetkeyBuildsTheWordSchedule :
    (fresh .k192 .sw keyUp).params.path = .sw ∧ (0 < KeySize.nk .k192 ∧ 5 < KeySize.nk .k192 ∧ ¬ 6 < KeySize.nk .k192) ∧
    (KeySize.nk .k192 ≤ 6 ∧ 6 < 4 * (KeySize.nr .k192 + 1)) ∧ (KeySize.nk .k192 ≤ 51 ∧ 51 < 4 * (KeySize.nr .k192 + 1)) := by decide

/-- The inner lanes: i = 1 and i = Nr−1. -/
theorem witness_SetkeyBuildsBothLaneSchedules :
    (fresh .k128 .hw keyUp).params.path = .hw ∧ (1 ≤ 1 ∧ 1 ≤ KeySize.nr .k128 - 1) ∧ (1 ≤ 9 ∧ 9 ≤ KeySize.nr .k128 - 1) := by decide

theorem witness_FirstRoundKeysAreTheKeyBytes :
    (fresh .k192 .sw 0).params.keySize = .k192 ∧ (fresh .k256 .hw 0).params.keySize = .k256 ∧ (0 : Nat) < 8 ∧ (7 : Nat) < 8 ∧
      (15 : Nat) < 16 := by decide

/-- No key; a key on the software path; a key on the hardware path. -/
theorem witness_EncryptAnswersTheCipher :
    (fresh .k128 .sw plain).keyValid = false ∧
    ((keyed .k192 .sw plain).keyValid = true ∧ (keyed .k192 .sw plain).params.path = .sw) ∧
    ((keyed .k256 .hw plain).keyValid = true ∧ (keyed .k256 .hw plain).params.path = .hw) :=
  ⟨rfl, ⟨rfl, rfl⟩, rfl, rfl⟩

theorem witness_DecryptAnswersTheInverseCipher :
    (fresh .k256 .hw plain).keyValid = false ∧
    ((keyed .k128 .sw plain).keyValid = true ∧ (keyed .k128 .sw plain).params.path = .sw) ∧
    ((keyed .k192 .hw plain).keyValid = true ∧ (keyed .k192 .hw plain).params.path = .hw) :=
  ⟨rfl, ⟨rfl, rfl⟩, rfl, rfl⟩

/-- The six clauses: no key; r = Nr+1; the decryption schedule of a SW instance; r = Nr on each of the three others. -/
theorem witness_RdrkAnswersOneRoundKey :
    (fresh .k128 .sw 0).keyValid = false ∧
    ((keyed .k128 .sw 0).keyValid = true ∧ (keyed .k128 .sw 0).params.keySize.nr < 11) ∧
    ((keyed .k192 .sw 0).keyValid = true ∧ (keyed .k192 .sw 0).params.path = .sw) ∧
    ((keyed .k128 .sw 0).keyValid = true ∧ 10 ≤ (keyed .k128 .sw 0).params.keySize.nr ∧
      (keyed .k128 .sw 0).params.path = .sw ∧ (3 : Nat) < 4) ∧
    ((keyed .k256 .hw 0).keyValid = true ∧ 14 ≤ (keyed .k256 .hw 0).params.keySize.nr ∧ (keyed .k256 .hw 0).params.path = .hw) := by
  exact ⟨rfl, ⟨rfl, by decide⟩, ⟨rfl, rfl⟩, ⟨rfl, by decide, rfl, by decide⟩, rfl, by decide, rfl⟩

/-- i = 0 and i = Nr of the ends, i = 1 and i = Nr−1 of the inner lanes. -/
theorem witness_RdrkDecIsAesimcOfTheMirroredFwd :
    (keyed .k192 .hw 0).Inv ∧ (keyed .k192 .hw 0).keyValid = true ∧ (keyed .k192 .hw 0).params.path = .hw ∧
    (0 ≤ KeySize.nr .k192 ∧ 12 ≤ KeySize.nr .k192 ∧ 12 = KeySize.nr .k192) ∧ (1 ≤ 1 ∧ 1 ≤ KeySize.nr .k192 - 1) ∧
    (1 ≤ 11 ∧ 11 ≤ KeySize.nr .k192 - 1) :=
  ⟨keyed_inv .k192 .hw 0, rfl, rfl, by decide, by decide, by decide⟩

/-- A DIN whose first 16 bytes are a given block, with the other 16 set. -/
theorem witness_EncryptAndDecryptUndoEachOther : (dinOf plain (2 ^ 128 - 1)).extractLsb' 0 128 = blk plain := by decide +kernel

theorem witness_BothPathsAnswerAlike :
    (fresh .k256 .sw 0).params.path = .sw ∧ (fresh .k256 .hw 0).params.path = .hw ∧
    (fresh .k256 .sw 0).params.keySize = (fresh .k256 .hw 0).params.keySize ∧
    (∀ r : Nat, decode 0x00000E04 ≠ .ok (.rdrk r .dec)) := by
  refine ⟨rfl, rfl, rfl, fun r h => ?_⟩
  rw [show decode 0x00000E04 = .ok (.rdrk 14 .fwd) by decide] at h
  cases h

/-- The two readings of a byte number that the bytewise statements use, at their ends: i < 16, and 4·c + r with c, r < 4. -/
theorem witness_bytewise_statements : (0 : Nat) < 16 ∧ (15 : Nat) < 16 ∧ ((3 : Nat) < 4 ∧ 4 * 3 + 3 = 15) ∧ ((1 : Nat) ≤ 1 ∧ (4 : Nat) ≤ 4) := by
  decide

/-- A lane whose dwords 3 and 1 hold the bytes of one software word in byte order. -/
theorem witness_KeygenAssistComputesTheWordTransform :
    (∀ b : Nat, b < 4 → byteAt (dword (blk 0x0c0d0e0f0c0d0e0f0c0d0e0f0c0d0e0f) 3) b = beByte 0x0c0d0e0f b) ∧
    (∀ b : Nat, b < 4 → byteAt (dword (blk 0x0c0d0e0f0c0d0e0f0c0d0e0f0c0d0e0f) 1) b = beByte 0x0c0d0e0f b) := by decide +kernel

/-- A word schedule laid into lanes, its first and its last lane. -/
theorem witness_HwCiphersAgreeWithSwCiphers :
    ∀ r : Nat, r ≤ 2 → ([laneOf [1, 2, 3, 4, 5, 6, 7, 8, 9, 10, 11, 12] 0, laneOf [1, 2, 3, 4, 5, 6, 7, 8, 9, 10, 11, 12] 1,
      laneOf [1, 2, 3, 4, 5, 6, 7, 8, 9, 10, 11, 12] 2] : List Lane).getD r 0 = laneOf [1, 2, 3, 4, 5, 6, 7, 8, 9, 10, 11, 12] r := by
  decide +kernel

theorem witness_GfMulObeysTheFieldLaws : (0x53 : Byte) ≠ 0 ∧ gfMul 0x53 0xca = 1 := by decide +kernel

theorem witness_SboxIsTheAffineTransformOfTheInverse :
    gfMul 0x53 0xca = 1 ∧ ((0 : Byte) = 0 ∧ (0 : Byte) = 0) ∧ (0 : Nat) < 8 ∧ (7 : Nat) < 8 := by decide +kernel

/-- The two clauses meet at Nk and at 4·(Nr+1): 3 and 44 rejected, 4 and 43 answered, on the 128-bit instance. -/
theorem witness_KexptAnswersTheWordTransform :
    3 < KeySize.nk .k128 ∧ 4 * (KeySize.nr .k128 + 1) ≤ 44 ∧ (KeySize.nk .k128 ≤ 4 ∧ 4 < 4 * (KeySize.nr .k128 + 1)) ∧
    (KeySize.nk .k128 ≤ 43 ∧ 43 < 4 * (KeySize.nr .k128 + 1)) := by decide

end Sys2Proof.Tests
end

section
/-! PROOFS. The parameters KEY_BITS and PATH (R9, R10): which KEY_BITS values `makeInstance` takes, and that no command, no
reset and no step changes the parameters. -/

namespace Sys2Proof

/-- KEY_BITS names its key size (R9). -/
@[simp] theorem KeySize.ofBits_bits (k : KeySize) : KeySize.ofBits k.bits = some k := by
  cases k <;> rfl

/-- A value that is not the KEY_BITS of a key size names none (R9, U16). -/
theorem KeySize.ofBits_eq_none {n : Nat} (h : ∀ k : KeySize, n ≠ k.bits) : KeySize.ofBits n = none := by
  have h128 : n ≠ 128 := h .k128
  have h192 : n ≠ 192 := h .k192
  have h256 : n ≠ 256 := h .k256
  rw [KeySize.ofBits, if_neg h128, if_neg h192, if_neg h256]

end Sys2Proof

namespace Sys2Proof.Machine

@[simp] theorem State.fresh_params (p : Params) : (State.fresh p).params = p := rfl

/-- A KEY_BITS value of R9 gives the state right after reset of its key size. -/
theorem makeInstance_bits (k : KeySize) (path : Path) :
    makeInstance k.bits path = .next (State.fresh ⟨k, path⟩) := by
  simp only [makeInstance, KeySize.ofBits_bits]

/-- Any other value is refused by name (R9, U16). -/
theorem makeInstance_refused {n : Nat} (path : Path) (h : ∀ k : KeySize, n ≠ k.bits) :
    makeInstance n path = .refused (.noSuchKeyBits n) := by
  simp only [makeInstance, KeySize.ofBits_eq_none h]

theorem execSetkey_params {s t : State} (h : execSetkey s = .next t) : t.params = s.params := by
  obtain ⟨-, hs⟩ | ⟨-, hs⟩ := execSetkey_cases s <;>
    · rw [hs] at h
      cases h
      rfl

/-- No command changes KEY_BITS or PATH (R9, R10). -/
theorem exec_params {i : Instr} {s t : State} (h : exec i s = .next t) : t.params = s.params := by
  by_cases hi : i = .setkey
  · subst hi
    exact execSetkey_params h
  · obtain ⟨v, hv⟩ | ⟨c, -, hc⟩ := exec_answers hi s
    · rw [hv] at h
      cases h
      exact s.respond_params v
    · rw [hc] at h
      cases h
      exact s.reject_params c

/-- No step changes KEY_BITS or PATH: not an idle one, not a reset, not a rejection and not a command (R9, R10, R260). -/
theorem step_params {s t : State} (h : step s = .next t) : t.params = s.params := by
  obtain ⟨-, rfl⟩ | ⟨rest, -, rfl⟩ | ⟨cmd, din, rest, e, -, -, rfl⟩ | ⟨cmd, din, rest, i, u, -, -, hu, rfl⟩ := step_cases h
  · rfl
  · exact s.hardReset_params
  · exact s.reject_params .errIllegal
  · have hparams : u.params = s.params := exec_params hu
    exact hparams

/-- Settles O11: `makeInstance_bits` for the three values, `makeInstance_refused` for every other number, and `step_params`. -/
theorem keyBitsIsFixedAndAnyOtherIsRefused : Obligations.KeyBitsIsFixedAndAnyOtherIsRefused := by
  unfold Obligations.KeyBitsIsFixedAndAnyOtherIsRefused
  refine ⟨rfl, ?_, ?_, ?_, ?_, fun k => ⟨rfl, rfl⟩, fun s t => step_params⟩
  · exact fun path => ⟨_, makeInstance_bits .k128 path, rfl, KeySize.nk_k128, KeySize.nr_k128⟩
  · exact fun path => ⟨_, makeInstance_bits .k192 path, rfl, KeySize.nk_k192, KeySize.nr_k192⟩
  · exact fun path => ⟨_, makeInstance_bits .k256 path, rfl, KeySize.nk_k256, KeySize.nr_k256⟩
  · intro n path h128 h192 h256
    refine makeInstance_refused path fun k => ?_
    cases k
    · exact h128
    · exact h192
    · exact h256

end Sys2Proof.Machine
end

section
/-! PROOFS. The invariant of the state (R26-R30, R240, R241): it holds right after reset, each state operation keeps it, and so
does every step. The frame of the commands (R29) and KEY_VALID (R25). -/

namespace Sys2Proof

/-- The software path has Nb·(Nr+1) words (R26) and no lanes (R27, R28). -/
theorem Params.counts_of_sw {p : Params} (h : p.path = .sw) :
    p.wordCount = 4 * (p.keySize.nr + 1) ∧ p.laneCount = 0 := by
  simp [Params.wordCount, Params.laneCount, nb, h]

/-- The hardware path has no words (R26) and Nr+1 lanes in each schedule (R27, R28). -/
theorem Params.counts_of_hw {p : Params} (h : p.path = .hw) :
    p.wordCount = 0 ∧ p.laneCount = p.keySize.nr + 1 := by
  simp [Params.wordCount, Params.laneCount, h]

end Sys2Proof

namespace Sys2Proof.Machine

@[simp] theorem State.fresh_keyValid (p : Params) : (State.fresh p).keyValid = false := rfl

/-- Right after reset a block has storage of the right shape, an OK response and no key (R260). -/
theorem State.fresh_inv (p : Params) : (State.fresh p).Inv where
  shape := ⟨List.length_replicate, List.length_replicate, List.length_replicate⟩
  response := ⟨.inl rfl, fun hs => absurd rfl hs⟩
  keyed := fun hv => absurd hv (by simp)

/-- The invariant says nothing about the requests still to come. -/
theorem State.Inv.setInbox {s : State} (h : s.Inv) (rest : List Input) : ({ s with inbox := rest } : State).Inv :=
  ⟨h.shape, h.response, h.keyed⟩

theorem State.Inv.respond {s : State} (h : s.Inv) (v : Lane) : (s.respond v).Inv :=
  ⟨h.shape, ⟨.inl rfl, fun hs => absurd rfl hs⟩, h.keyed⟩

theorem State.Inv.reject {s : State} (h : s.Inv) (c : StatusCode) : (s.reject c).Inv :=
  ⟨h.shape, ⟨c.code_cases, fun _ => rfl⟩, h.keyed⟩

/-- A reset keeps the shape of the storage and takes the key away, so nothing is said of what it leaves there (R261). -/
theorem State.Inv.hardReset {s : State} (h : s.Inv) : s.hardReset.Inv where
  shape := by
    obtain ⟨hw, hrk, hdrk⟩ := h.shape
    exact ⟨s.hardReset_w_length.trans hw, s.hardReset_rk_length.trans hrk, s.hardReset_drk_length.trans hdrk⟩
  response := ⟨.inl rfl, fun hs => absurd rfl hs⟩
  keyed := fun hv => absurd hv (by simp)

/-- SETKEY answers OK with a key loaded, and the schedule is the one of that key (R30, R80). -/
theorem execSetkey_keyed (s : State) :
    ∃ t : State, execSetkey s = .next t ∧ t.keyValid = true ∧ t.ScheduleOf s.din := by
  obtain ⟨hp, hs⟩ | ⟨hp, hs⟩ := execSetkey_cases s
  · exact ⟨_, hs, rfl, by simp [State.ScheduleOf, hp]⟩
  · exact ⟨_, hs, rfl, by simp [State.ScheduleOf, hp]⟩

/-- SETKEY gives each array it writes the length the parameters fix, and does not write the others (R26-R28). -/
theorem execSetkey_shape {s t : State} (h : s.ShapeOk) (ht : execSetkey s = .next t) : t.ShapeOk := by
  obtain ⟨hw, hrk, hdrk⟩ := h
  obtain ⟨hp, hs⟩ | ⟨hp, hs⟩ := execSetkey_cases s
  · cases hs.symm.trans ht
    exact ⟨(keyExpansion_length _ _).trans (Params.counts_of_sw hp).1.symm, hrk, hdrk⟩
  · have hlane := (Params.counts_of_hw hp).2.symm
    cases hs.symm.trans ht
    exact ⟨hw, (hwExpand_length _ _).trans hlane, (deriveInverse_length _ _).trans hlane⟩

/-- The response of SETKEY is OK and 16 zero bytes (R80). -/
theorem execSetkey_response {s t : State} (ht : execSetkey s = .next t) : t.status = 0x00 ∧ t.dout = 0 := by
  obtain ⟨-, hs⟩ | ⟨-, hs⟩ := execSetkey_cases s <;>
    · cases hs.symm.trans ht
      exact ⟨rfl, rfl⟩

theorem State.Inv.execSetkey {s t : State} (h : s.Inv) (ht : execSetkey s = .next t) : t.Inv := by
  obtain ⟨u, hu, -, hsched⟩ := execSetkey_keyed s
  cases hu.symm.trans ht
  obtain ⟨hstatus, -⟩ := execSetkey_response ht
  exact ⟨execSetkey_shape h.shape ht, ⟨.inl hstatus, fun hs => absurd hstatus hs⟩, fun _ => ⟨s.din, hsched⟩⟩

/-- Every command keeps the invariant: SETKEY loads a whole schedule, and the others end in a response or a rejection. -/
theorem State.Inv.exec {i : Instr} {s t : State} (h : s.Inv) (ht : exec i s = .next t) : t.Inv := by
  by_cases hi : i = .setkey
  · subst hi
    exact h.execSetkey ht
  · obtain ⟨v, hv⟩ | ⟨c, -, hc⟩ := exec_answers hi s
    · cases hv.symm.trans ht
      exact h.respond v
    · cases hc.symm.trans ht
      exact h.reject c

theorem State.Inv.step {s t : State} (h : s.Inv) (ht : step s = .next t) : t.Inv := by
  obtain ⟨-, rfl⟩ | ⟨rest, -, rfl⟩ | ⟨cmd, din, rest, e, -, -, rfl⟩ | ⟨cmd, din, rest, i, u, -, -, hu, rfl⟩ := step_cases ht
  · exact h
  · exact h.hardReset.setInbox rest
  · exact (h.reject .errIllegal).setInbox rest
  · exact (h.exec hu).setInbox rest

/-- Settles O14: `State.Inv.step`, assembled from one lemma for each state operation. -/
theorem everyStepKeepsTheInvariant : Obligations.EveryStepKeepsTheInvariant := by
  unfold Obligations.EveryStepKeepsTheInvariant
  exact fun s t => State.Inv.step

/-- Settles O15: `State.fresh_inv`, of which `State.reset` is one case. -/
theorem freshInstancesHaveTheInvariant : Obligations.FreshInstancesHaveTheInvariant := by
  unfold Obligations.FreshInstancesHaveTheInvariant
  exact ⟨State.fresh_inv, State.fresh_inv _⟩

/-- The frame of the 21 commands that are not SETKEY (R29). -/
theorem exec_frame {i : Instr} {s t : State} (hi : i ≠ .setkey) (ht : exec i s = .next t) :
    t = { s with status := t.status, dout := t.dout } := by
  obtain ⟨v, hv⟩ | ⟨c, -, hc⟩ := exec_answers hi s
  · cases hv.symm.trans ht
    rfl
  · cases hc.symm.trans ht
    rfl

/-- Settles O16: `exec_frame`. -/
theorem onlySetkeyWritesTheSchedule : Obligations.OnlySetkeyWritesTheSchedule := by
  unfold Obligations.OnlySetkeyWritesTheSchedule
  exact fun i s t => exec_frame

/-- No command clears KEY_VALID (R25). -/
theorem exec_keeps_keyValid {i : Instr} {s t : State} (ht : exec i s = .next t) (hv : s.keyValid = true) :
    t.keyValid = true := by
  by_cases hi : i = .setkey
  · subst hi
    obtain ⟨u, hu, huv, -⟩ := execSetkey_keyed s
    cases hu.symm.trans ht
    exact huv
  · rw [exec_frame hi ht]
    exact hv

/-- The only step that clears KEY_VALID is a reset (R25, R260, R262). -/
theorem step_clears_keyValid {s t : State} (ht : step s = .next t) (hv : s.keyValid = true) (hv' : t.keyValid = false) :
    ∃ rest : List Input, s.inbox = .reset :: rest ∨ ∃ (cmd : Word) (din : Data), s.inbox = .resetDuring cmd din :: rest := by
  obtain ⟨-, rfl⟩ | ⟨rest, hreset, -⟩ | ⟨cmd, din, rest, e, -, -, rfl⟩ | ⟨cmd, din, rest, i, u, -, -, hu, rfl⟩ := step_cases ht
  · simp [hv] at hv'
  · exact ⟨rest, hreset⟩
  · simp [hv] at hv'
  · have huv : u.keyValid = true := exec_keeps_keyValid hu hv
    simp [huv] at hv'

/-- Without a key ENCRYPT, DECRYPT and RDRK are rejected with ERR_NOKEY before anything else is looked at (R242, R243). -/
theorem exec_without_key {s : State} (hv : s.keyValid = false) :
    exec .encrypt s = .next (s.reject .errNoKey) ∧ exec .decrypt s = .next (s.reject .errNoKey) ∧
      ∀ (r : Nat) (sel : Sel), exec (.rdrk r sel) s = .next (s.reject .errNoKey) :=
  ⟨s.needKey_invalid hv _, s.needKey_invalid hv _, fun _ _ => s.needKey_invalid hv _⟩

/-- Settles O17: one lemma for each clause. -/
theorem keyValidIsSetBySetkeyAndClearedByReset : Obligations.KeyValidIsSetBySetkeyAndClearedByReset := by
  unfold Obligations.KeyValidIsSetBySetkeyAndClearedByReset
  refine ⟨State.fresh_keyValid, fun s => ?_, fun i s t => exec_keeps_keyValid, fun s t => step_clears_keyValid,
    fun s => exec_without_key⟩
  obtain ⟨t, ht, hv, -⟩ := execSetkey_keyed s
  exact ⟨t, ht, hv⟩

end Sys2Proof.Machine
end

section
/-! PROOFS. Two runs of one loop side by side, and Expand192 with two values in the unused half of w[1] (R33, R184). The half
reaches the high half of s1 in every iteration, and from there the high half of RK[k+1] in an even one; the merge of the odd
iteration after it overwrites that half, so two runs never differ in anything else. -/

namespace Sys2Proof.Machine

/-- A relation that each turn of two loops keeps, from the turn's index to the next one, holds when the loops end (R19). -/
theorem forUp_rel {α β : Type} {R : Nat → α → β → Prop} {f : Nat → α → α} {g : Nat → β → β} {lo hi : Nat} {x : α} {y : β}
    (hlo : lo ≤ hi + 1) (h0 : R lo x y)
    (hturn : ∀ i a b, lo ≤ i → i ≤ hi → R i a b → R (i + 1) (f i a) (g i b)) :
    R (hi + 1) (forUp lo hi f x) (forUp lo hi g y) := by
  induction hn : hi + 1 - lo generalizing lo x y with
  | zero =>
    obtain rfl : lo = hi + 1 := by omega
    rw [forUp_empty _ _ (Nat.lt_succ_self hi), forUp_empty _ _ (Nat.lt_succ_self hi)]
    exact h0
  | succ n ih =>
    have hle : lo ≤ hi := by omega
    rw [forUp_first _ _ hle, forUp_first _ _ hle]
    exact ih (by omega) (hturn lo x y le_rfl hle h0) (fun i a b hi' => hturn i a b (by omega)) (by omega)

@[simp] theorem low64_lanepair (lo hi : Half) : low64 (lanepair lo hi) = lo :=
  BitVec.extractLsb'_append_eq_right

@[simp] theorem low64_xor (x y : Lane) : low64 (x ^^^ y) = low64 x ^^^ low64 y :=
  BitVec.extractLsb'_xor

/-- The low half of a lane moved up by whole bytes comes from its low half only (R178). -/
theorem low64_sllBytes (x : Lane) (n : Nat) : low64 (sllBytes x n) = low64 x <<< (8 * n) := by
  apply BitVec.eq_of_getLsbD_eq
  intro i hi
  have hlane : i < 128 := by omega
  have hhalf : i - 8 * n < 64 := by omega
  simp only [low64, sllBytes, BitVec.getLsbD_extractLsb', BitVec.getLsbD_shiftLeft, Nat.zero_add, hi, hlane, hhalf,
    decide_true, Bool.true_and]

/-- Dword 1 is the upper dword of the low half (R15). -/
theorem dword_one_eq_low64 (x : Lane) : dword x 1 = (low64 x).extractLsb' 32 32 :=
  (BitVec.extractLsb'_extractLsb'_of_le (by decide)).symm

/-- Two rolling states that hold the same s0 and the same low half of s1. -/
structure Rolling.SameLow (p q : Rolling) : Prop where
  s0 : p.s0 = q.s0
  s1 : low64 p.s1 = low64 q.s1

/-- AESKEYGENASSIST's dword 1 and the shift by a dword read the low half of s1 only, so the high half of s1 never reaches s0
or the low half of the next s1 (R183). -/
theorem rollingTurn_sameLow {p q : Rolling} (h : p.SameLow q) (n : Nat) : (rollingTurn n p).SameLow (rollingTurn n q) := by
  have hd : dword p.s1 1 = dword q.s1 1 := by rw [dword_one_eq_low64, dword_one_eq_low64, h.s1]
  have hs0 : (rollingTurn n p).s0 = (rollingTurn n q).s0 := by
    simp [rollingTurn, bcast32, aeskeygenassist, h.s0, hd]
  refine ⟨hs0, ?_⟩
  have hs1 (r : Rolling) : low64 (rollingTurn n r).s1 =
      low64 r.s1 ^^^ low64 r.s1 <<< (8 * 4) ^^^ low64 (bcast32 (rollingTurn n r).s0 3) := by
    simp only [rollingTurn, low64_xor, low64_sllBytes]
  rw [hs1, hs1, h.s1, hs0]

/-- Two partial schedules that are the same but for the high half of entry k. -/
def SameButHighOf (k : Nat) (xs ys : List Lane) : Prop :=
  ∃ (zs : List Lane) (x y : Lane), low64 x = low64 y ∧ xs = zs.set k x ∧ ys = zs.set k y

theorem SameButHighOf.low64_getD {k : Nat} {xs ys : List Lane} (h : SameButHighOf k xs ys) :
    low64 (xs.getD k 0) = low64 (ys.getD k 0) := by
  obtain ⟨zs, x, y, hxy, rfl, rfl⟩ := h
  by_cases hk : k < zs.length
  · simp [hk, hxy]
  · simp [hk]

/-- Writing entry k makes the two the same. -/
theorem SameButHighOf.set_eq {k : Nat} {xs ys : List Lane} (h : SameButHighOf k xs ys) (v : Lane) : xs.set k v = ys.set k v := by
  obtain ⟨zs, x, y, -, rfl, rfl⟩ := h
  simp

/-- Iteration n of Expand192 with n odd merges the low half of s0 into entry k and fills entry k+1 (R185). -/
theorem rollingWrite_odd {n : Nat} (q : Rolling) (hn : n % 2 = 1) :
    (rollingWrite n q).rk =
      (q.rk.set (1 + 3 * (n - 1) / 2) (lanepair (low64 (q.rk.getD (1 + 3 * (n - 1) / 2) 0)) (low64 q.s0))).set
        (1 + 3 * (n - 1) / 2 + 1) (lanepair (high64 q.s0) (low64 q.s1)) := by
  have h8 : n ≠ 8 := by omega
  simp only [rollingWrite, if_neg h8, if_pos hn]

/-- Iteration n with n even, but for the last, writes s0 and s1 whole (R185). -/
theorem rollingWrite_even {n : Nat} (q : Rolling) (h8 : n ≠ 8) (hn : n % 2 ≠ 1) :
    (rollingWrite n q).rk = (q.rk.set (3 * n / 2) q.s0).set (3 * n / 2 + 1) q.s1 := by
  simp only [rollingWrite, if_neg h8, if_neg hn]

/-- Iteration 8 writes s0 only (R185). -/
theorem rollingWrite_last (q : Rolling) : (rollingWrite 8 q).rk = q.rk.set 12 q.s0 := rfl

/-- A write to the partial schedule leaves the rolling state alone. -/
theorem rollingWrite_rolling (n : Nat) (q : Rolling) : (rollingWrite n q).s0 = q.s0 ∧ (rollingWrite n q).s1 = q.s1 := by
  unfold rollingWrite
  split
  · exact ⟨rfl, rfl⟩
  · split <;> exact ⟨rfl, rfl⟩

/-- What two runs of Expand192 have in common before iteration n: before an even one the partial schedules are the same, and
before an odd one they are the same but for the high half that its merge will write (R185). -/
structure SameRuns (n : Nat) (p q : Rolling) : Prop where
  low : p.SameLow q
  even : n % 2 ≠ 1 → p.rk = q.rk
  odd : n % 2 = 1 → SameButHighOf (1 + 3 * (n - 1) / 2) p.rk q.rk

theorem SameRuns.turn {n : Nat} {p q : Rolling} (hn : n ≤ 7) (h : SameRuns n p q) :
    SameRuns (n + 1) (rollingWrite n (rollingTurn n p)) (rollingWrite n (rollingTurn n q)) := by
  have hlow := rollingTurn_sameLow h.low n
  refine ⟨?_, fun hnext => ?_, fun hnext => ?_⟩
  · obtain ⟨hp0, hp1⟩ := rollingWrite_rolling n (rollingTurn n p)
    obtain ⟨hq0, hq1⟩ := rollingWrite_rolling n (rollingTurn n q)
    exact ⟨by rw [hp0, hq0, hlow.s0], by rw [hp1, hq1, hlow.s1]⟩
  · have hodd : n % 2 = 1 := by omega
    have hrk : SameButHighOf (1 + 3 * (n - 1) / 2) (rollingTurn n p).rk (rollingTurn n q).rk := h.odd hodd
    rw [rollingWrite_odd _ hodd, rollingWrite_odd _ hodd, hlow.s0, hlow.s1, hrk.low64_getD, hrk.set_eq]
  · have heven : n % 2 ≠ 1 := by omega
    have hrk : (rollingTurn n p).rk = (rollingTurn n q).rk := h.even heven
    have hk : 1 + 3 * (n + 1 - 1) / 2 = 3 * n / 2 + 1 := by omega
    rw [rollingWrite_even _ (by omega) heven, rollingWrite_even _ (by omega) heven, hlow.s0, hrk, hk]
    exact ⟨_, _, _, hlow.s1, rfl, rfl⟩

/-- The last iteration reads nothing of what two runs may differ in. -/
theorem SameRuns.last {p q : Rolling} (h : SameRuns 8 p q) :
    (rollingWrite 8 (rollingTurn 8 p)).rk = (rollingWrite 8 (rollingTurn 8 q)).rk := by
  have hrk : (rollingTurn 8 p).rk = (rollingTurn 8 q).rk := h.even (by decide)
  rw [rollingWrite_last, rollingWrite_last, (rollingTurn_sameLow h.low 8).s0, hrk]

/-- The whole loop of Expand192 from two such starts gives one schedule. -/
theorem SameRuns.loop {p q : Rolling} (h : SameRuns 1 p q) :
    (forUp 1 8 (fun n r => rollingWrite n (rollingTurn n r)) p).rk =
      (forUp 1 8 (fun n r => rollingWrite n (rollingTurn n r)) q).rk := by
  rw [forUp_last (hi := 7) _ p (by decide), forUp_last (hi := 7) _ q (by decide)]
  exact SameRuns.last (forUp_rel (R := SameRuns) (by decide) h fun n _ _ _ hn hs => hs.turn hn)

/-- Whatever the unused half of w[1] holds, the first iteration merges over it (R184). -/
theorem sameRuns_start (hi hi' lo : Half) (k0 : Lane) :
    SameRuns 1 ⟨k0 :: lanepair lo hi :: List.replicate 11 0, k0, lanepair lo hi⟩
      ⟨k0 :: lanepair lo hi' :: List.replicate 11 0, k0, lanepair lo hi'⟩ where
  low := ⟨rfl, by simp⟩
  even := fun h => absurd rfl h
  odd := fun _ => ⟨k0 :: 0 :: List.replicate 11 0, lanepair lo hi, lanepair lo hi', by simp, rfl, rfl⟩

/-- R184's last sentence for any two values of the unused half. -/
theorem expand192With_congr (hi hi' : Half) (key : Data) : expand192With hi key = expand192With hi' key := by
  unfold expand192With
  exact (sameRuns_start hi hi' _ _).loop

/-- Settles O50: two runs of the loop side by side, `SameRuns.turn` in each of the first seven iterations. -/
theorem expand192IgnoresTheUnusedHalf : Obligations.Expand192IgnoresTheUnusedHalf := by
  unfold Obligations.Expand192IgnoresTheUnusedHalf
  exact fun hi key => expand192With_congr hi 0 key

end Sys2Proof.Machine
end

section
/-! PROOFS. The first Nk words of a schedule are the key (R30, R136, R181-R186), and RDRK fwd reads them back on both paths
(R83). -/

namespace Sys2Proof.Machine

/-- Byte b of a field of whole bytes is a byte of the value it is taken from (R41). -/
theorem byteAt_extractLsb' {n : Nat} (v : BitVec n) (o : Nat) {len b : Nat} (h : 8 * b + 8 ≤ len) :
    byteAt (v.extractLsb' (8 * o) len) b = byteAt v (o + b) := by
  apply BitVec.eq_of_getLsbD_eq
  intro j hj
  have hlen : 8 * b + j < len := by omega
  have hpos : 8 * o + (8 * b + j) = 8 * (o + b) + j := by omega
  simp only [getLsbD_byteAt, BitVec.getLsbD_extractLsb', hlen, hpos, decide_true, Bool.true_and]

/-- The bytes of the low half of a lane are the lane's first eight (R15). -/
theorem byteAt_low64 (x : Lane) {b : Nat} (h : b < 8) : byteAt (low64 x) b = byteAt x b :=
  (byteAt_extractLsb' x 0 (by omega)).trans (by rw [Nat.zero_add])

/-- KEY is DIN[0..4·Nk) (R61, R80). -/
theorem byteAt_keyOperand (k : KeySize) (din : Data) {i : Nat} (h : i < 4 * k.nk) :
    byteAt (keyOperand k din) i = byteAt din i := by
  have hk : k.nk ≤ 8 := by cases k <;> decide
  have hset : byteAt (keyOperand k din) i = byteAt (din.extractLsb' 0 (32 * k.nk)) i :=
    BitVec.extractLsb'_setWidth_of_le (by omega)
  rw [hset, ← Nat.mul_zero 8, byteAt_extractLsb' din 0 (by omega), Nat.zero_add]

/-- A loop that only appends keeps the entries it starts from. -/
theorem forUp_extends {α : Type} {lo hi : Nat} {body : Nat → List α → List α} (h : ∀ i y, y <+: body i y) (x : List α) :
    x <+: forUp lo hi body x :=
  forUp_keeps (x <+: ·) lo hi body x List.prefix_rfl fun i y hy => hy.trans (h i y)

/-- What each turn from the first index on keeps, the loop keeps (R19). -/
theorem forUp_keeps_from {α : Type} {P : α → Prop} {lo hi : Nat} {body : Nat → α → α} {x : α} (hlo : lo ≤ hi + 1) (h0 : P x)
    (h : ∀ i y, lo ≤ i → P y → P (body i y)) : P (forUp lo hi body x) :=
  forUp_rel (R := fun _ y _ => P y) (g := body) (y := x) hlo h0 fun i y _ hlo' _ => h i y hlo'

theorem getD_of_extends {α : Type} {x y : List α} (h : x <+: y) {i : Nat} (hi : i < x.length) (d : α) :
    y.getD i d = x.getD i d := by
  obtain ⟨z, rfl⟩ := h
  exact List.getD_append x z d i hi

/-! ### The software path -/

/-- unpack_be undoes pack_be (R16). -/
theorem beByte_packBE (f : Nat → Byte) {j : Nat} (h : j < 4) : beByte (packBE (f 0) (f 1) (f 2) (f 3)) j = f j := by
  have hbyte (w : Word) : beByte w j = byteAt w (3 - j) := rfl
  rw [hbyte, packBE]
  interval_cases j <;> simp only [byteAt_append_zero, byteAt_append_succ, byteAt_self, Nat.reduceSub]

theorem byteAt_laneOf (w : List Word) (r : Nat) {b : Nat} (h : b < 16) :
    byteAt (laneOf w r) b = beByte (w.getD (4 * r + b / 4) 0) (b % 4) :=
  byteAt_laneOfBytes _ h

/-- The first Nk words of KeyExpansion are the key's words (R133). -/
theorem keyExpansion_getD {nk nr i : Nat} (key : Data) (h : i < nk) :
    (keyExpansion nk nr key).getD i 0 =
      packBE (byteAt key (4 * i)) (byteAt key (4 * i + 1)) (byteAt key (4 * i + 2)) (byteAt key (4 * i + 3)) := by
  have hpre : keyWords nk key <+: keyExpansion nk nr key := forUp_extends (fun _ _ => List.prefix_append _ _) _
  rw [getD_of_extends hpre (by simpa [keyWords] using h)]
  simp [keyWords, h]

/-- Byte b of lane r of the word schedule is key byte 16·r + b, while the key lasts (R136, R192). -/
theorem byteAt_laneOf_keyExpansion {nk nr r b : Nat} (key : Data) (hb : b < 16) (h : 16 * r + b < 4 * nk) :
    byteAt (laneOf (keyExpansion nk nr key) r) b = byteAt key (16 * r + b) := by
  have hpos : 4 * (4 * r + b / 4) + b % 4 = 16 * r + b := by omega
  rw [byteAt_laneOf _ _ hb, keyExpansion_getD key (by omega), ← hpos]
  exact beByte_packBE (fun j => byteAt key (4 * (4 * r + b / 4) + j)) (Nat.mod_lt b (by decide))

/-! ### The hardware path -/

/-- The first lane of the key stands in entry 0 of a partial schedule and the next half lane in the low half of entry 1
(R183). -/
structure HoldsKey (key : Data) (rk : List Lane) : Prop where
  lane0 : rk.getD 0 0 = key.extractLsb' 0 128
  half1 : low64 (rk.getD 1 0) = key.extractLsb' 128 64

theorem getD_set_of_ne {α : Type} (xs : List α) {k i : Nat} (h : k ≠ i) (v d : α) : (xs.set k v).getD i d = xs.getD i d := by
  rw [List.getD_eq_getElem?_getD, List.getD_eq_getElem?_getD, List.getElem?_set_ne h]

/-- A write above entry 1 leaves the key where it is. -/
theorem HoldsKey.set {key : Data} {rk : List Lane} (h : HoldsKey key rk) {k : Nat} (hk : 1 < k) (v : Lane) :
    HoldsKey key (rk.set k v) where
  lane0 := by rw [getD_set_of_ne _ (by omega), h.lane0]
  half1 := by rw [getD_set_of_ne _ (by omega), h.half1]

/-- The merge into entry 1 keeps that entry's low half (R185). -/
theorem HoldsKey.merge {key : Data} {rk : List Lane} (h : HoldsKey key rk) (hi : Half) :
    HoldsKey key (rk.set 1 (lanepair (low64 (rk.getD 1 0)) hi)) where
  lane0 := by rw [getD_set_of_ne _ (by decide), h.lane0]
  half1 := by
    rw [← h.half1]
    by_cases hk : 1 < rk.length
    · simp [hk]
    · rw [List.set_eq_of_length_le (Nat.le_of_not_lt hk)]

/-- No iteration of Expand192 moves the key: the first merges into entry 1, and all else is written above it (R185). -/
theorem HoldsKey.rollingWrite {key : Data} {n : Nat} {q : Rolling} (hn : 1 ≤ n) (h : HoldsKey key q.rk) :
    HoldsKey key (rollingWrite n q).rk := by
  by_cases h8 : n = 8
  · rw [h8, rollingWrite_last]
    exact h.set (by decide) _
  by_cases hodd : n % 2 = 1
  · rw [rollingWrite_odd q hodd]
    by_cases h1 : n = 1
    · subst h1
      exact (h.merge _).set (by decide) _
    · exact (h.set (by omega) _).set (by omega) _
  · rw [rollingWrite_even q h8 hodd]
    exact (h.set (by omega) _).set (by omega) _

/-- Expand192 ends with the key where it put it (R183). -/
theorem expand192_holdsKey (key : Data) : HoldsKey key (expand192 key) :=
  forUp_keeps_from (P := fun q : Rolling => HoldsKey key q.rk) (by decide) ⟨rfl, low64_lanepair _ _⟩
    fun n q hn (h : HoldsKey key (rollingTurn n q).rk) => h.rollingWrite hn

/-- RK[0] is the first lane of the key (R181, R183, R186). -/
theorem hwExpand_getD_zero (k : KeySize) (key : Data) : (hwExpand k key).getD 0 0 = key.extractLsb' 0 128 := by
  cases k
  case k128 => exact getD_of_extends (forUp_extends (fun _ _ => List.prefix_append _ _) _) (by simp) 0
  case k192 => exact (expand192_holdsKey key).lane0
  case k256 => exact getD_of_extends (forUp_extends (fun _ _ => List.prefix_append _ _) _) (by simp) 0

/-- RK[1] of Expand256 is the second lane of the key (R186). -/
theorem expand256_getD_one (key : Data) : (expand256 key).getD 1 0 = key.extractLsb' 128 128 :=
  getD_of_extends (forUp_extends (fun _ _ => List.prefix_append _ _) _) (by simp) 0

/-- Byte b of RK[r] is key byte 16·r + b, while the key lasts (R181, R183, R186). -/
theorem byteAt_hwExpand {k : KeySize} {r b : Nat} (key : Data) (hb : b < 16) (h : 16 * r + b < 4 * k.nk) :
    byteAt ((hwExpand k key).getD r 0) b = byteAt key (16 * r + b) := by
  by_cases h0 : r = 0
  · subst h0
    rw [hwExpand_getD_zero]
    exact byteAt_extractLsb' key 0 (by omega)
  · cases k
    case k128 =>
      rw [KeySize.nk_k128] at h
      omega
    case k192 =>
      rw [KeySize.nk_k192] at h
      obtain rfl : r = 1 := by omega
      have hb8 : b < 8 := by omega
      rw [← byteAt_low64 _ hb8, hwExpand, (expand192_holdsKey key).half1]
      exact byteAt_extractLsb' key 16 (by omega)
    case k256 =>
      rw [KeySize.nk_k256] at h
      obtain rfl : r = 1 := by omega
      rw [hwExpand, expand256_getD_one]
      exact byteAt_extractLsb' key 16 (by omega)

/-! ### Reading the schedule back -/

/-- The round key RDRK r, fwd reads: LaneOf(W, r) on the software path and RK[r] on the hardware path (R83). -/
def State.roundKey (s : State) (r : Nat) : Lane :=
  match s.params.path with
  | .sw => laneOf s.w r
  | .hw => s.rk.getD r 0

/-- RDRK fwd with a key and an index in range answers that round key (R83). -/
theorem execRdrk_fwd {s : State} {r : Nat} (hv : s.keyValid = true) (hr : r ≤ s.params.keySize.nr) :
    execRdrk r .fwd s = .next (s.respond (s.roundKey r)) := by
  have hrange : roundOutOfRange s.params.keySize r = false := by simpa [roundOutOfRange] using hr
  have hsel : selOutOfRange s.params.path .fwd = false := by simp [selOutOfRange]
  rw [execRdrk.eq_def, State.needKey_valid hv, hrange, hsel, State.roundKey]
  cases s.params.path <;> rfl

theorem State.ScheduleOf.w_eq {s : State} {din : Data} (h : s.ScheduleOf din) (hp : s.params.path = .sw) :
    s.w = keyExpansion s.params.keySize.nk s.params.keySize.nr (keyOperand s.params.keySize din) := by
  simpa only [State.ScheduleOf, hp] using h

theorem State.ScheduleOf.rk_eq {s : State} {din : Data} (h : s.ScheduleOf din) (hp : s.params.path = .hw) :
    s.rk = hwExpand s.params.keySize (keyOperand s.params.keySize din) := by
  simp only [State.ScheduleOf, hp] at h
  exact h.1

/-- The first round keys of a schedule are the bytes of its key in order (law 7, R30). -/
theorem byteAt_roundKey {s : State} {din : Data} (h : s.ScheduleOf din) {r b : Nat} (hb : b < 16)
    (hk : 16 * r + b < 4 * s.params.keySize.nk) : byteAt (s.roundKey r) b = byteAt din (16 * r + b) := by
  rw [← byteAt_keyOperand s.params.keySize din hk]
  cases hp : s.params.path with
  | sw => simp only [State.roundKey, hp, h.w_eq hp, byteAt_laneOf_keyExpansion _ hb hk]
  | hw => simp only [State.roundKey, hp, h.rk_eq hp, byteAt_hwExpand _ hb hk]

/-- The transaction of SETKEY (R80). -/
theorem issue_setkey (s : State) (key : Data) :
    ∃ t : State, issue s 0x00000001 key = .next t ∧ t.params = s.params ∧ t.keyValid = true ∧ t.ScheduleOf key := by
  obtain ⟨u, hu, hv, hsched⟩ := execSetkey_keyed { s with inbox := .request 0x00000001 key :: s.inbox }
  have hparams := execSetkey_params hu
  refine ⟨{ u with inbox := s.inbox }, ?_, hparams, hv, hsched⟩
  rw [issue_ok s key (by decide : decode 0x00000001 = .ok .setkey), exec_setkey, hu, retire_next]

/-- The transaction of RDRK r, fwd with a key and an index in range (R83). -/
theorem issue_rdrk_fwd {s : State} {cmd : Word} {r : Nat} (din : Data) (hd : decode cmd = .ok (.rdrk r .fwd))
    (hv : s.keyValid = true) (hr : r ≤ s.params.keySize.nr) : issue s cmd din = .next (s.respond (s.roundKey r)) := by
  have hanswer := execRdrk_fwd (s := { s with inbox := .request cmd din :: s.inbox }) hv hr
  rw [issue_ok s din hd, exec_rdrk, hanswer]
  rfl

/-- Settles O28: `issue_setkey` loads the schedule, `issue_rdrk_fwd` reads two of its round keys, and `byteAt_roundKey` says
what they are. -/
theorem firstRoundKeysAreTheKeyBytes : Obligations.FirstRoundKeysAreTheKeyBytes := by
  unfold Obligations.FirstRoundKeysAreTheKeyBytes
  intro s key din
  obtain ⟨t, ht, hparams, hv, hsched⟩ := issue_setkey s key
  have hnr : 1 ≤ t.params.keySize.nr := by cases t.params.keySize <;> decide
  have hnk : 4 ≤ t.params.keySize.nk := by cases t.params.keySize <;> decide
  rw [← hparams]
  refine ⟨t, t.respond (t.roundKey 0), t.respond (t.roundKey 1), ht, issue_rdrk_fwd din (by decide) hv (Nat.zero_le _),
    issue_rdrk_fwd din (by decide) hv hnr, rfl, fun b hb => ?_, rfl, fun hk b hb => ?_, fun hk b hb => ?_⟩
  · exact (byteAt_roundKey hsched hb (by omega)).trans (by rw [Nat.mul_zero, Nat.zero_add])
  · exact byteAt_roundKey hsched (by omega) (by rw [hk, KeySize.nk_k192]; omega)
  · exact byteAt_roundKey hsched hb (by rw [hk, KeySize.nk_k256]; omega)

end Sys2Proof.Machine
end

section
/-! PROOFS. Order and atomicity (R46, R47, R48, R51): a step of a state with a request at the head of its inbox is the
transaction of that request at the state behind it, so `issue_ok` and `din_request` say what it does. -/

namespace Sys2Proof.Machine

/-- A command reads the DIN of the oldest request (R48). -/
theorem State.din_of_inbox {s : State} {cmd : Word} {din : Data} {rest : List Input}
    (hb : s.inbox = .request cmd din :: rest) : s.din = din := by
  calc
    s.din = ({ s with inbox := .request cmd din :: rest } : State).din := by rw [← hb]
    _ = din := din_request s cmd din rest

/-- A step with a request presented is a transaction of that request (D1, R47). -/
theorem step_eq_issue {s : State} {cmd : Word} {din : Data} {rest : List Input}
    (hb : s.inbox = .request cmd din :: rest) : step s = issue { s with inbox := rest } cmd din := by
  rw [issue, ← hb]

/-- A step with a legal request presented runs its command on the state as it is and retires the request (R48, R51). -/
theorem step_request {s : State} {cmd : Word} {din : Data} {rest : List Input} {i : Instr}
    (hb : s.inbox = .request cmd din :: rest) (hd : decode cmd = .ok i) : step s = retire rest (exec i s) := by
  rw [step_eq_issue hb, issue_ok _ din hd, ← hb]

/-- Settles O8: `State.din_of_inbox` and `step_request`, with `retire` written out for each outcome of the command. -/
theorem stepRunsTheDecodedCommand : Obligations.StepRunsTheDecodedCommand := by
  unfold Obligations.StepRunsTheDecodedCommand
  intro s cmd din rest i hb hd
  refine ⟨State.din_of_inbox hb, ?_⟩
  rw [step_request hb hd]
  cases exec i s with
  | next t => exact retire_next rest t
  | fault r => exact nomatch r
  | refused r => rfl

end Sys2Proof.Machine
end

section
/-! PROOFS. The command word (R60, R62, R63, R66, R67): `decode_eq_ok_iff` says which command a legal word is, field by field,
and `decode_eq_error` which of R63's four conditions a word that is not legal breaks. -/

namespace Sys2Proof

/-- The OPC values of R62. -/
def assignedOpcodes : List Byte :=
  [0x01, 0x02, 0x03, 0x04, 0x10, 0x11, 0x12, 0x13, 0x14, 0x15, 0x16, 0x20, 0x21, 0x22, 0x23, 0x24, 0x25, 0x30, 0x31, 0x32, 0x33,
    0x34]

/-- The opcodes that use IMM8: RDRK, AESKEYGENASSIST and KEXPT (R63, condition 3). -/
def immOpcodes : List Byte := [0x04, 0x25, 0x34]

theorem opcode_mem_assignedOpcodes (i : Instr) : opcode i ∈ assignedOpcodes := by
  cases i <;> simp [opcode, assignedOpcodes]

/-- SEL = 1 is the decryption schedule and SEL = 0 the forward one, so SEL is read back from RDRK (R60, R83). -/
theorem selField_rdrk_selOf (r : Nat) (b : BitVec 1) : selField (.rdrk r (selOf b)) = b := by
  obtain rfl | rfl := BitVec.eq_zero_or_eq_one b <;> rfl

theorem selOf_selField_rdrk (r : Nat) (sel : Sel) : selOf (selField (.rdrk r sel)) = sel := by
  cases sel <;> rfl

theorem fixedForm_eq_ok_iff {cmd : Word} {i j : Instr} :
    fixedForm cmd i = .ok j ↔ i = j ∧ cmdImm8 cmd = 0 ∧ cmdSel cmd = 0 := by
  unfold fixedForm
  split
  · simp_all
  · split <;> simp_all

theorem immForm_eq_ok_iff {cmd : Word} {i j : Instr} : immForm cmd i = .ok j ↔ i = j ∧ cmdSel cmd = 0 := by
  unfold immForm
  split <;> simp_all

/-- What the opcode map makes of a word: the command of a row of R62 in one of the three forms R63 knows, or nothing. -/
inductive OpcodeRow (cmd : Word) : Except Illegal Instr → Prop
  | fixed {i : Instr} (hopc : cmdOpc cmd = opcode i) (huse : opcode i ∉ immOpcodes) (hwf : i.wellFormed = true)
      (himm : immField i = 0) (hsel : selField i = 0) : OpcodeRow cmd (fixedForm cmd i)
  | imm {i : Instr} (hopc : cmdOpc cmd = opcode i) (huse : opcode i ≠ 0x04) (hwf : i.wellFormed = true)
      (himm : immField i = cmdImm8 cmd) (hsel : selField i = 0) : OpcodeRow cmd (immForm cmd i)
  | rdrk (hopc : cmdOpc cmd = 0x04) : OpcodeRow cmd (.ok (.rdrk (cmdImm8 cmd).toNat (selOf (cmdSel cmd))))
  | unassigned (hopc : cmdOpc cmd ∉ assignedOpcodes) : OpcodeRow cmd (.error .unassignedOpcode)

/-- Every word has its row: RDRK is the fourth arm of the opcode map, AESKEYGENASSIST the 17th and KEXPT the 22nd (R62). -/
theorem decodeOpc_row (cmd : Word) : OpcodeRow cmd (decodeOpc cmd) := by
  unfold decodeOpc
  split
  case h_4 h => exact .rdrk (BitVec.eq_of_toNat_eq h)
  case h_17 h => exact .imm (BitVec.eq_of_toNat_eq h) (by simp [opcode]) rfl rfl rfl
  case h_22 h =>
    exact .imm (BitVec.eq_of_toNat_eq h) (by simp [opcode]) (by simpa [Instr.wellFormed] using (cmdImm8 cmd).isLt)
      (by simp [immField]) rfl
  case h_23 =>
    refine .unassigned fun hmem => ?_
    simp only [assignedOpcodes, List.mem_cons, List.not_mem_nil, or_false, ← BitVec.toNat_inj] at hmem
    simp_all
  all_goals next h => exact .fixed (BitVec.eq_of_toNat_eq h) (by decide) rfl rfl rfl

/-- Which command a word of RSV = 0 with these fields is (R62, R66). -/
theorem decodeOpc_of_fields {cmd : Word} {i : Instr} (hwf : i.wellFormed = true) (hopc : cmdOpc cmd = opcode i)
    (himm : cmdImm8 cmd = immField i) (hsel : cmdSel cmd = selField i) : decodeOpc cmd = .ok i := by
  unfold decodeOpc
  rw [hopc]
  cases i
  case rdrk r sel =>
    have hr : (BitVec.ofNat 8 r).toNat = r := Nat.mod_eq_of_lt (by simpa [Instr.wellFormed] using hwf)
    have hr' : (cmdImm8 cmd).toNat = r := himm ▸ hr
    have hs : selOf (cmdSel cmd) = sel := hsel ▸ selOf_selField_rdrk r sel
    rw [← hs, ← hr']
    rfl
  case aeskeygenassist imm8 => exact immForm_eq_ok_iff.mpr ⟨congrArg _ himm, hsel⟩
  case kexpt j =>
    have hj : (BitVec.ofNat 8 j).toNat = j := Nat.mod_eq_of_lt (by simpa [Instr.wellFormed] using hwf)
    exact immForm_eq_ok_iff.mpr ⟨congrArg _ (himm ▸ hj), hsel⟩
  all_goals exact fixedForm_eq_ok_iff.mpr ⟨rfl, himm, hsel⟩

/-- The fields of a word that the opcode map takes (R62, R63). -/
theorem fields_of_decodeOpc {cmd : Word} {i : Instr} (h : decodeOpc cmd = .ok i) :
    i.wellFormed = true ∧ cmdOpc cmd = opcode i ∧ cmdImm8 cmd = immField i ∧ cmdSel cmd = selField i := by
  have hrow := decodeOpc_row cmd
  rw [h] at hrow
  generalize ho : Except.ok i = o at hrow
  cases hrow with
  | fixed hopc huse hwf himm hsel =>
    obtain ⟨rfl, himm0, hsel0⟩ := fixedForm_eq_ok_iff.mp ho.symm
    exact ⟨hwf, hopc, himm0.trans himm.symm, hsel0.trans hsel.symm⟩
  | imm hopc huse hwf himm hsel =>
    obtain ⟨rfl, hsel0⟩ := immForm_eq_ok_iff.mp ho.symm
    exact ⟨hwf, hopc, himm.symm, hsel0.trans hsel.symm⟩
  | rdrk hopc =>
    cases ho
    exact ⟨by simpa [Instr.wellFormed] using (cmdImm8 cmd).isLt, hopc, by simp [immField], (selField_rdrk_selOf _ _).symm⟩
  | unassigned hopc => cases ho

/-- What the decoder reads: a word is the legal word of a well-formed command exactly when RSV = 0 and each other field is the
command's own (R60, R62, R63). -/
theorem decode_eq_ok_iff {cmd : Word} {i : Instr} :
    decode cmd = .ok i ↔
      i.wellFormed = true ∧ cmdRsv cmd = 0 ∧ cmdOpc cmd = opcode i ∧ cmdImm8 cmd = immField i ∧ cmdSel cmd = selField i := by
  by_cases hrsv : cmdRsv cmd = 0
  · rw [decode, if_neg (not_not_intro hrsv)]
    constructor
    · intro h
      obtain ⟨hwf, hopc, himm, hsel⟩ := fields_of_decodeOpc h
      exact ⟨hwf, hrsv, hopc, himm, hsel⟩
    · rintro ⟨hwf, -, hopc, himm, hsel⟩
      exact decodeOpc_of_fields hwf hopc himm hsel
  · rw [decode, if_pos hrsv]
    exact iff_of_false nofun fun ⟨_, hrsv0, _⟩ => hrsv hrsv0

/-- Settles O1: `encode_fields` gives the fields `decode_eq_ok_iff` asks for. -/
theorem decodeOfEncodeIsTheCommand : Obligations.DecodeOfEncodeIsTheCommand := by
  unfold Obligations.DecodeOfEncodeIsTheCommand
  intro i hwf
  obtain ⟨hopc, himm, hsel, hrsv⟩ := encode_fields i
  exact decode_eq_ok_iff.mpr ⟨hwf, hrsv, hopc, himm, hsel⟩

/-- Settles O2: a word is its four fields (`cmd_eq_fields`), and those are the command's. -/
theorem encodeOfDecodeIsTheWord : Obligations.EncodeOfDecodeIsTheWord := by
  unfold Obligations.EncodeOfDecodeIsTheWord
  intro cmd i h
  obtain ⟨hwf, hrsv, hopc, himm, hsel⟩ := decode_eq_ok_iff.mp h
  refine ⟨?_, hwf⟩
  rw [cmd_eq_fields cmd, hrsv, hopc, himm, hsel, encode]

/-- The word breaks the condition of R63 that this verdict names. -/
def Illegal.BrokenBy (cmd : Word) : Illegal → Prop
  | .reservedBits => cmdRsv cmd ≠ 0
  | .unassignedOpcode => cmdOpc cmd ∉ assignedOpcodes
  | .immediateNotZero => cmdImm8 cmd ≠ 0 ∧ cmdOpc cmd ∉ immOpcodes
  | .selectNotZero => cmdSel cmd ≠ 0 ∧ cmdOpc cmd ≠ 0x04

theorem fixedForm_error {cmd : Word} {i : Instr} {e : Illegal} (h : fixedForm cmd i = .error e) (huse : cmdOpc cmd ∉ immOpcodes) :
    e.BrokenBy cmd := by
  unfold fixedForm at h
  split at h
  case isTrue himm =>
    cases h
    exact ⟨himm, huse⟩
  case isFalse =>
    split at h
    case isTrue hsel =>
      cases h
      exact ⟨hsel, fun h4 => huse (h4 ▸ by decide)⟩
    case isFalse => cases h

theorem immForm_error {cmd : Word} {i : Instr} {e : Illegal} (h : immForm cmd i = .error e) (huse : cmdOpc cmd ≠ 0x04) :
    e.BrokenBy cmd := by
  unfold immForm at h
  split at h
  case isTrue hsel =>
    cases h
    exact ⟨hsel, huse⟩
  case isFalse => cases h

/-- The decoder rejects a word only for a condition of R63 that the word breaks. -/
theorem decode_error {cmd : Word} {e : Illegal} (h : decode cmd = .error e) : e.BrokenBy cmd := by
  unfold decode at h
  split at h
  case isTrue hrsv =>
    cases h
    exact hrsv
  case isFalse =>
    have hrow := decodeOpc_row cmd
    rw [h] at hrow
    generalize ho : Except.error e = o at hrow
    cases hrow with
    | fixed hopc huse => exact fixedForm_error ho.symm (hopc ▸ huse)
    | imm hopc huse => exact immForm_error ho.symm (hopc ▸ huse)
    | rdrk => cases ho
    | unassigned hopc =>
      cases ho
      exact hopc

/-- A command whose IMM8 field is not 0 is one of the three that use it (R63). -/
theorem immField_eq_zero_or (i : Instr) : immField i = 0 ∨ opcode i ∈ immOpcodes := by
  cases i
  case rdrk => exact .inr (by simp [opcode, immOpcodes])
  case aeskeygenassist => exact .inr (by simp [opcode, immOpcodes])
  case kexpt => exact .inr (by simp [opcode, immOpcodes])
  all_goals exact .inl rfl

/-- A command whose SEL field is not 0 is RDRK (R63). -/
theorem selField_eq_zero_or (i : Instr) : selField i = 0 ∨ opcode i = 0x04 := by
  cases i
  case rdrk => exact .inr rfl
  all_goals exact .inl rfl

/-- R63: a word is legal exactly when it meets the four conditions. -/
theorem exists_decode_eq_ok_iff (cmd : Word) :
    (∃ i : Instr, decode cmd = .ok i) ↔
      cmdRsv cmd = 0 ∧ cmdOpc cmd ∈ assignedOpcodes ∧ (cmdImm8 cmd = 0 ∨ cmdOpc cmd ∈ immOpcodes) ∧
        (cmdSel cmd = 0 ∨ cmdOpc cmd = 0x04) := by
  constructor
  · rintro ⟨i, hi⟩
    obtain ⟨-, hrsv, hopc, himm, hsel⟩ := decode_eq_ok_iff.mp hi
    rw [hrsv, hopc, himm, hsel]
    exact ⟨rfl, opcode_mem_assignedOpcodes i, immField_eq_zero_or i, selField_eq_zero_or i⟩
  · rintro ⟨hrsv, hopc, himm, hsel⟩
    cases hd : decode cmd with
    | ok i => exact ⟨i, rfl⟩
    | error e =>
      exfalso
      have hbroken := decode_error hd
      cases e with
      | reservedBits => exact hbroken hrsv
      | unassignedOpcode => exact hbroken hopc
      | immediateNotZero => exact himm.elim hbroken.1 hbroken.2
      | selectNotZero => exact hsel.elim hbroken.1 hbroken.2

/-- The opcodes of R62 lie in four ranges; R67 reserves the rest. -/
theorem assignedOpcodes_ranges :
    ∀ b ∈ assignedOpcodes, (0x01 ≤ b.toNat ∧ b.toNat ≤ 0x04) ∨ (0x10 ≤ b.toNat ∧ b.toNat ≤ 0x16) ∨
      (0x20 ≤ b.toNat ∧ b.toNat ≤ 0x25) ∨ (0x30 ≤ b.toNat ∧ b.toNat ≤ 0x34) := by decide

theorem immOpcodes_toNat : ∀ b ∈ immOpcodes, b.toNat = 0x04 ∨ b.toNat = 0x25 ∨ b.toNat = 0x34 := by decide

theorem cmdOpc_toNat (cmd : Word) : (cmdOpc cmd).toNat = cmd.toNat % 256 := by
  rw [cmdOpc, BitVec.extractLsb'_toNat, Nat.shiftRight_zero]

theorem cmdImm8_toNat (cmd : Word) : (cmdImm8 cmd).toNat = cmd.toNat / 2 ^ 8 % 256 := by
  rw [cmdImm8, BitVec.extractLsb'_toNat, Nat.shiftRight_eq_div_pow]

theorem cmdSel_toNat (cmd : Word) : (cmdSel cmd).toNat = cmd.toNat / 2 ^ 16 % 2 := by
  rw [cmdSel, BitVec.extractLsb'_toNat, Nat.shiftRight_eq_div_pow]

theorem cmdRsv_toNat (cmd : Word) : (cmdRsv cmd).toNat = cmd.toNat / 2 ^ 17 := by
  rw [cmdRsv, BitVec.extractLsb'_toNat, Nat.shiftRight_eq_div_pow, Nat.mod_eq_of_lt (by omega)]

/-- R63's four conditions as arithmetic on the number of a legal word (R60). -/
theorem legal_word_toNat {cmd : Word} {i : Instr} (h : decode cmd = .ok i) :
    cmd.toNat / 2 ^ 17 = 0 ∧
      ((0x01 ≤ cmd.toNat % 256 ∧ cmd.toNat % 256 ≤ 0x04) ∨ (0x10 ≤ cmd.toNat % 256 ∧ cmd.toNat % 256 ≤ 0x16) ∨
        (0x20 ≤ cmd.toNat % 256 ∧ cmd.toNat % 256 ≤ 0x25) ∨ (0x30 ≤ cmd.toNat % 256 ∧ cmd.toNat % 256 ≤ 0x34)) ∧
      (cmd.toNat / 2 ^ 8 % 256 = 0 ∨ cmd.toNat % 256 = 0x04 ∨ cmd.toNat % 256 = 0x25 ∨ cmd.toNat % 256 = 0x34) ∧
      (cmd.toNat / 2 ^ 16 % 2 = 0 ∨ cmd.toNat % 256 = 0x04) := by
  obtain ⟨hrsv, hopc, himm, hsel⟩ := (exists_decode_eq_ok_iff cmd).mp ⟨i, h⟩
  rw [← cmdRsv_toNat, ← cmdOpc_toNat, ← cmdImm8_toNat, ← cmdSel_toNat]
  exact ⟨congrArg BitVec.toNat hrsv, assignedOpcodes_ranges _ hopc, himm.imp (congrArg BitVec.toNat) (immOpcodes_toNat _),
    hsel.imp (congrArg BitVec.toNat) (congrArg BitVec.toNat)⟩

end Sys2Proof

namespace Sys2Proof.Machine

/-- A transaction of a word that is no command's is rejected with ERR_ILLEGAL (R63, R241). -/
theorem issue_illegal {cmd : Word} (h : ∀ i : Instr, decode cmd ≠ .ok i) (s : State) (din : Data) :
    issue s cmd din = .next { s with status := 0x01, dout := 0 } := by
  cases hd : decode cmd with
  | ok i => exact absurd hd (h i)
  | error e => exact issue_error s din hd

/-- Settles O3: `exists_decode_eq_ok_iff` and `issue_illegal`. -/
theorem legalWordsAreThoseOfR63 : Obligations.LegalWordsAreThoseOfR63 := by
  unfold Obligations.LegalWordsAreThoseOfR63
  exact fun cmd => ⟨exists_decode_eq_ok_iff cmd, issue_illegal⟩

/-- Settles O4: each clause of R67 contradicts one of the four facts `legal_word_toNat` gives of a legal word. -/
theorem reservedWordsAreRejected : Obligations.ReservedWordsAreRejected := by
  unfold Obligations.ReservedWordsAreRejected
  intro s cmd din hreserved
  refine issue_illegal (fun i hi => ?_) s din
  obtain ⟨hrsv, hopc, himm, hsel⟩ := legal_word_toNat hi
  obtain h0 | h05 | h17 | h26 | h35 | hrsv' | ⟨himm', hno04, hno25, hno34⟩ | ⟨hsel', hno04⟩ | rfl := hreserved
  · omega
  · omega
  · omega
  · omega
  · omega
  · exact hrsv' hrsv
  · obtain h | h | h | h := himm
    · exact himm' h
    · exact hno04 h
    · exact hno25 h
    · exact hno34 h
  · exact hsel.elim hsel' hno04
  · exact absurd hopc (by decide)

end Sys2Proof.Machine
end

section
/-! PROOFS. DIN bytes a command does not use (R62, R64). Two DINs with the same used bytes give the command the same operand, and
a transaction's answer is a function of the operand and of the state before it. -/

namespace Sys2Proof.Machine

/-- Data with the same first n bytes has the same first bits, so far as those bytes reach (R41). -/
theorem extractLsb'_eq_of_bytes {d d' : Data} {n len : Nat} (h : ∀ b < n, byteAt d b = byteAt d' b) (hlen : len ≤ 8 * n) :
    d.extractLsb' 0 len = d'.extractLsb' 0 len := by
  apply BitVec.eq_of_getLsbD_eq
  intro j hj
  have hbit := congrArg (fun b : Byte => b.getLsbD (j % 8)) (h (j / 8) (by omega))
  have hm : j % 8 < 8 := Nat.mod_lt _ (by decide)
  simpa only [BitVec.getLsbD_extractLsb', getLsbD_byteAt, hj, hm, decide_true, Bool.true_and, Nat.div_add_mod, Nat.zero_add]
    using hbit

/-- Data with the same 32 bytes is the same data (R41). -/
theorem data_ext {d d' : Data} (h : ∀ b < 32, byteAt d b = byteAt d' b) : d = d' := by
  simpa only [BitVec.extractLsb'_eq_self] using extractLsb'_eq_of_bytes (len := 256) h (by decide)

/-- The state in which a transaction runs its command (D1). -/
def State.present (s : State) (cmd : Word) (din : Data) : State := { s with inbox := .request cmd din :: s.inbox }

@[simp] theorem State.present_params (s : State) (cmd : Word) (din : Data) : (s.present cmd din).params = s.params := rfl
@[simp] theorem State.present_din (s : State) (cmd : Word) (din : Data) : (s.present cmd din).din = din := rfl

section
variable {s : State} {cmd : Word} {d d' : Data}

/-- Responses computed from equal operands are equal. -/
theorem retire_respond_congr {α : Type} {a a' : α} (f : α → Lane) (ha : a = a') :
    retire s.inbox (.next ((s.present cmd d).respond (f a))) = retire s.inbox (.next ((s.present cmd d').respond (f a'))) := by
  rw [ha]
  rfl

/-- Two commands that branch alike answer alike when each branch does. -/
theorem retire_if_congr {c : Prop} [Decidable c] {rest : List Input} {o o' p p' : Host.Outcome State Fault Refusal}
    (ho : retire rest o = retire rest o') (hp : retire rest p = retire rest p') :
    retire rest (if c then o else p) = retire rest (if c then o' else p') := by
  split
  · exact ho
  · exact hp

/-- The KEY_VALID guard does not look at DIN (R242). -/
theorem retire_needKey_congr {run run' : Host.Outcome State Fault Refusal} (hrun : retire s.inbox run = retire s.inbox run') :
    retire s.inbox ((s.present cmd d).needKey run) = retire s.inbox ((s.present cmd d').needKey run') :=
  retire_if_congr hrun rfl

/-- SETKEY builds its schedule from KEY (R80). -/
theorem execSetkey_congr (hkey : keyOperand s.params.keySize d = keyOperand s.params.keySize d') :
    retire s.inbox (execSetkey (s.present cmd d)) = retire s.inbox (execSetkey (s.present cmd d')) := by
  simp only [execSetkey, State.present_params, State.present_din, hkey]
  cases s.params.path <;> rfl

/-- ENCRYPT reads S on both paths (R81). -/
theorem execEncrypt_congr (hS : (s.present cmd d).opS = (s.present cmd d').opS) :
    retire s.inbox (execEncrypt (s.present cmd d)) = retire s.inbox (execEncrypt (s.present cmd d')) := by
  refine retire_needKey_congr ?_
  simp only [State.present_params]
  cases s.params.path with
  | sw => exact retire_respond_congr (fun S => swCipher s.params.keySize.nr S s.w) hS
  | hw => exact retire_respond_congr (fun S => hwCipher s.params.keySize.nr S s.rk) hS

/-- DECRYPT reads S on both paths (R82). -/
theorem execDecrypt_congr (hS : (s.present cmd d).opS = (s.present cmd d').opS) :
    retire s.inbox (execDecrypt (s.present cmd d)) = retire s.inbox (execDecrypt (s.present cmd d')) := by
  refine retire_needKey_congr ?_
  simp only [State.present_params]
  cases s.params.path with
  | sw => exact retire_respond_congr (fun S => swInvCipher s.params.keySize.nr S s.w) hS
  | hw => exact retire_respond_congr (fun S => hwInvCipher s.params.keySize.nr S s.drk) hS

/-- RDRK reads no byte of DIN (R62, R83). -/
theorem execRdrk_congr (r : Nat) (sel : Sel) :
    retire s.inbox (execRdrk r sel (s.present cmd d)) = retire s.inbox (execRdrk r sel (s.present cmd d')) := by
  refine retire_needKey_congr ?_
  refine retire_if_congr rfl (retire_if_congr rfl ?_)
  simp only [State.present_params]
  cases s.params.path with
  | sw => rfl
  | hw => cases sel <;> rfl

/-- KEXPT reads the word operand (R142). -/
theorem execKexpt_congr (i : Nat) (hX : (s.present cmd d).opX = (s.present cmd d').opX) :
    retire s.inbox (execKexpt i (s.present cmd d)) = retire s.inbox (execKexpt i (s.present cmd d')) :=
  retire_if_congr rfl (retire_respond_congr (fun x => resultWord (wordT s.params.keySize.nk x i)) hX)

section
variable {n : Nat} (h : ∀ b < n, byteAt d b = byteAt d' b)
include h

theorem opS_congr (hn : 16 ≤ n) : (s.present cmd d).opS = (s.present cmd d').opS :=
  extractLsb'_eq_of_bytes h (by omega)

theorem keyOperand_congr (k : KeySize) (hn : 4 * k.nk ≤ n) : keyOperand k d = keyOperand k d' :=
  congrArg (BitVec.setWidth 256) (extractLsb'_eq_of_bytes h (by omega))

theorem opX_congr (hn : 4 ≤ n) : (s.present cmd d).opX = (s.present cmd d').opX := by
  simp only [State.opX, State.present_din, h 0 (by omega), h 1 (by omega), h 2 (by omega), h 3 (by omega)]

end

/-- The column "DIN used" of R62 holds what a command reads. -/
theorem exec_congr_of_dinUsed (i : Instr) (h : ∀ b < dinUsed s.params.keySize i, byteAt d b = byteAt d' b) :
    retire s.inbox (exec i (s.present cmd d)) = retire s.inbox (exec i (s.present cmd d')) := by
  by_cases hall : dinUsed s.params.keySize i = 32
  · obtain rfl : d = d' := data_ext (hall ▸ h)
    rfl
  cases i
  case setkey => exact execSetkey_congr (keyOperand_congr h _ le_rfl)
  case encrypt => exact execEncrypt_congr (opS_congr h le_rfl)
  case decrypt => exact execDecrypt_congr (opS_congr h le_rfl)
  case rdrk r sel => exact execRdrk_congr r sel
  case subbytes => exact retire_respond_congr subBytes (opS_congr h le_rfl)
  case invsubbytes => exact retire_respond_congr invSubBytes (opS_congr h le_rfl)
  case shiftrows => exact retire_respond_congr shiftRows (opS_congr h le_rfl)
  case invshiftrows => exact retire_respond_congr invShiftRows (opS_congr h le_rfl)
  case mixcolumns => exact retire_respond_congr mixColumns (opS_congr h le_rfl)
  case invmixcolumns => exact retire_respond_congr invMixColumns (opS_congr h le_rfl)
  case aesimc => exact retire_respond_congr aesimc (opS_congr h le_rfl)
  case aeskeygenassist imm8 => exact retire_respond_congr (aeskeygenassist · imm8) (opS_congr h le_rfl)
  case xtime => exact retire_respond_congr (fun a => resultByte (xtime a)) (h 0 Nat.one_pos)
  case gfmul =>
    have ha : (s.present cmd d).opA = (s.present cmd d').opA := h 0 Nat.two_pos
    have hb : (s.present cmd d).opB = (s.present cmd d').opB := h 1 Nat.one_lt_two
    exact retire_respond_congr id (congrArg resultByte (congrArg₂ gfMul ha hb))
  case subword => exact retire_respond_congr (fun x => resultWord (subWord x)) (opX_congr h le_rfl)
  case rotword => exact retire_respond_congr (fun x => resultWord (rotWord x)) (opX_congr h le_rfl)
  case kexpt j => exact execKexpt_congr j (opX_congr h le_rfl)
  all_goals exact absurd rfl hall

end

/-- Settles O21: a transaction runs its command and retires the request (`issue_ok`), and `exec_congr_of_dinUsed`. -/
theorem unusedDinBytesAreIgnored : Obligations.UnusedDinBytesAreIgnored := by
  unfold Obligations.UnusedDinBytesAreIgnored
  intro s cmd i d d' hd h
  rw [issue_ok s d hd, issue_ok s d' hd]
  exact exec_congr_of_dinUsed i h

end Sys2Proof.Machine
end

section
/-! PROOFS. The facade commands (R80-R83, R190): ENCRYPT and DECRYPT on each path, SETKEY of the key already loaded, and the
decryption schedule entry by entry as RDRK dec reads it. -/

namespace Sys2Proof.Machine

/-! ### ENCRYPT and DECRYPT -/

/-- Settles O29: the KEY_VALID guard without and with a key, then the arm of the path. -/
theorem encryptAnswersTheCipher : Obligations.EncryptAnswersTheCipher := by
  unfold Obligations.EncryptAnswersTheCipher
  refine fun s => ⟨fun hv => s.needKey_invalid hv _, fun hv hp => ?_, fun hv hp => ?_⟩ <;>
    · simp only [exec_encrypt, execEncrypt, State.needKey_valid hv, hp]
      rfl

/-- Settles O30: as for ENCRYPT, with W on the software path and DRK on the hardware path. -/
theorem decryptAnswersTheInverseCipher : Obligations.DecryptAnswersTheInverseCipher := by
  unfold Obligations.DecryptAnswersTheInverseCipher
  refine fun s => ⟨fun hv => s.needKey_invalid hv _, fun hv hp => ?_, fun hv hp => ?_⟩ <;>
    · simp only [exec_decrypt, execDecrypt, State.needKey_valid hv, hp]
      rfl

/-! ### SETKEY again -/

/-- SETKEY takes nothing off the inbox: `retire` does (R51). -/
theorem execSetkey_inbox {s t : State} (h : execSetkey s = .next t) : t.inbox = s.inbox := by
  obtain ⟨-, hs⟩ | ⟨-, hs⟩ := execSetkey_cases s <;>
    · cases hs.symm.trans h
      rfl

/-- What SETKEY writes depends on the parameters and DIN only, and it changes neither: its result is a fixed point (R80). -/
theorem execSetkey_again {s t : State} (h : execSetkey s = .next t) : execSetkey t = .next t := by
  obtain ⟨hp, hs⟩ | ⟨hp, hs⟩ := execSetkey_cases s <;>
    · cases hs.symm.trans h
      simp only [execSetkey, hp]
      rfl

/-- Settles O24: the second transaction presents the request the first one retired, so its command runs on the state the first
command left, and `execSetkey_again`. -/
theorem setkeyAgainChangesNothing : Obligations.SetkeyAgainChangesNothing := by
  unfold Obligations.SetkeyAgainChangesNothing
  intro s din
  have hd : decode 0x00000001 = .ok .setkey := by decide
  obtain ⟨u, hu, -⟩ := execSetkey_keyed (s.present 0x00000001 din)
  have hinbox : u.inbox = .request 0x00000001 din :: s.inbox := execSetkey_inbox hu
  have hfirst : issue s 0x00000001 din = .next { u with inbox := s.inbox } :=
    (issue_ok s din hd).trans (congrArg (retire s.inbox) hu)
  refine ⟨{ u with inbox := s.inbox }, hfirst, ?_⟩
  calc
    issue { u with inbox := s.inbox } 0x00000001 din = retire s.inbox (execSetkey u) := by
      rw [issue_ok _ din hd, ← hinbox, exec_setkey]
    _ = .next { u with inbox := s.inbox } := by rw [execSetkey_again hu, retire_next]

/-! ### The decryption schedule, entry by entry -/

theorem getD_set_self {α : Type} {xs : List α} {k : Nat} (h : k < xs.length) (v d : α) : (xs.set k v).getD k d = v := by
  rw [List.getD_eq_getElem?_getD, List.getElem?_set_self h, Option.getD_some]

/-- DRK before turn j of DeriveInverse: both ends are written, and so are the mirrors of entries 1 to j−1 (R190). -/
structure MirroredBelow (nr : Nat) (rk : List Lane) (j : Nat) (drk : List Lane) : Prop where
  length : drk.length = nr + 1
  first : drk.getD 0 0 = rk.getD nr 0
  last : drk.getD nr 0 = rk.getD 0 0
  inner : ∀ i, 1 ≤ i → i < j → drk.getD (nr - i) 0 = aesimc (rk.getD i 0)

section
variable {nr : Nat} (rk : List Lane)

/-- The two ends are written before the loop; they are different entries when there is a round. -/
theorem mirroredBelow_start (hnr : 1 ≤ nr) :
    MirroredBelow nr rk 1 (((List.replicate (nr + 1) 0).set 0 (rk.getD nr 0)).set nr (rk.getD 0 0)) where
  length := by simp
  first := by rw [getD_set_of_ne _ (by omega), getD_set_self (by simp)]
  last := getD_set_self (by simp) _ _
  inner := fun i h1 hi => absurd hi (by omega)

/-- Turn j writes entry Nr−j, which is no end and none of those written before. -/
theorem MirroredBelow.turn {rk : List Lane} {j : Nat} {drk : List Lane} (h1 : 1 ≤ j) (hj : j ≤ nr - 1)
    (h : MirroredBelow nr rk j drk) : MirroredBelow nr rk (j + 1) (drk.set (nr - j) (aesimc (rk.getD j 0))) where
  length := by rw [List.length_set, h.length]
  first := by rw [getD_set_of_ne _ (by omega), h.first]
  last := by rw [getD_set_of_ne _ (by omega), h.last]
  inner := by
    intro i hi1 hij
    by_cases heq : i = j
    · subst heq
      exact getD_set_self (by rw [h.length]; omega) _ _
    · rw [getD_set_of_ne _ (by omega), h.inner i hi1 (by omega)]

/-- DeriveInverse mirrors every inner entry and swaps the ends (R190). -/
theorem deriveInverse_mirrored (hnr : 1 ≤ nr) : MirroredBelow nr rk nr (deriveInverse nr rk) := by
  have hloop := forUp_rel (R := fun j drk _ => MirroredBelow nr rk j drk)
    (f := fun i drk => drk.set (nr - i) (aesimc (rk.getD i 0))) (g := fun _ => id) (y := ())
    (lo := 1) (hi := nr - 1) (by omega) (mirroredBelow_start rk hnr) fun j drk _ h1 hj h => h.turn h1 hj
  rwa [Nat.sub_add_cancel hnr] at hloop

end

/-! ### RDRK dec -/

theorem State.ScheduleOf.drk_eq {s : State} {din : Data} (h : s.ScheduleOf din) (hp : s.params.path = .hw) :
    s.drk = deriveInverse s.params.keySize.nr s.rk := by
  simp only [State.ScheduleOf, hp] at h
  exact h.2

theorem State.roundKey_hw {s : State} (hp : s.params.path = .hw) (r : Nat) : s.roundKey r = s.rk.getD r 0 := by
  simp only [State.roundKey, hp]

/-- RDRK dec on the hardware path with a key and an index in range answers DRK[r] (R83). -/
theorem execRdrk_dec {s : State} {r : Nat} (hv : s.keyValid = true) (hp : s.params.path = .hw)
    (hr : r ≤ s.params.keySize.nr) : execRdrk r .dec s = .next (s.respond (s.drk.getD r 0)) := by
  have hrange : roundOutOfRange s.params.keySize r = false := by simpa [roundOutOfRange] using hr
  have hsel : selOutOfRange s.params.path .dec = false := by simp [selOutOfRange, hp]
  rw [execRdrk.eq_def, State.needKey_valid hv, hrange, hsel, hp]
  rfl

/-- Settles O32: with a key DRK is DeriveInverse of RK (`State.Inv.keyed`), whose entries `deriveInverse_mirrored` gives; RDRK
reads DRK[i] and RK[Nr−i]. -/
theorem rdrkDecIsAesimcOfTheMirroredFwd : Obligations.RdrkDecIsAesimcOfTheMirroredFwd := by
  unfold Obligations.RdrkDecIsAesimcOfTheMirroredFwd
  intro s i hinv hv hp hi
  obtain ⟨din, hsched⟩ := hinv.keyed hv
  have hnr : 1 ≤ s.params.keySize.nr := by cases s.params.keySize <;> decide
  have hdrk := deriveInverse_mirrored s.rk hnr
  rw [← hsched.drk_eq hp] at hdrk
  have hfwd := execRdrk_fwd hv (Nat.sub_le s.params.keySize.nr i)
  rw [State.roundKey_hw hp] at hfwd
  refine ⟨_, _, execRdrk_dec hv hp hi, hfwd, rfl, rfl, ?_, fun h1 hlast => ?_⟩
  · rintro (rfl | rfl)
    · exact hdrk.first
    · rw [Nat.sub_self]
      exact hdrk.last
  · have hinner := hdrk.inner (s.params.keySize.nr - i) (by omega) (by omega)
    rwa [Nat.sub_sub_self hi] at hinner

end Sys2Proof.Machine
end

section
/-! PROOFS. The software round commands (R100-R105, R110-R116): the byte of each transform at each place, and 2·x and 3·x of
R104 from the loop of R213, which adds multiples of its first factor and so commutes with every map that respects XOR and
xtime. -/

namespace Sys2Proof.Machine

/-! ### What each command answers -/

@[simp] theorem exec_subbytes (s : State) : exec .subbytes s = .next (s.respond (subBytes s.opS)) := rfl
@[simp] theorem exec_invsubbytes (s : State) : exec .invsubbytes s = .next (s.respond (invSubBytes s.opS)) := rfl
@[simp] theorem exec_shiftrows (s : State) : exec .shiftrows s = .next (s.respond (shiftRows s.opS)) := rfl
@[simp] theorem exec_invshiftrows (s : State) : exec .invshiftrows s = .next (s.respond (invShiftRows s.opS)) := rfl
@[simp] theorem exec_mixcolumns (s : State) : exec .mixcolumns s = .next (s.respond (mixColumns s.opS)) := rfl
@[simp] theorem exec_invmixcolumns (s : State) : exec .invmixcolumns s = .next (s.respond (invMixColumns s.opS)) := rfl
@[simp] theorem exec_addroundkey (s : State) : exec .addroundkey s = .next (s.respond (s.opS ^^^ s.opK)) := rfl
@[simp] theorem exec_aesimc (s : State) : exec .aesimc s = .next (s.respond (invMixColumns s.opS)) := rfl

/-- OK and DOUT are all that `respond` writes (R18). -/
theorem State.respond_frame (s : State) (v : Lane) : s.respond v = { s with status := 0x00, dout := (s.respond v).dout } := rfl

/-! ### The operands by bytes -/

/-- S is DIN[0..16) (R18, R61). -/
theorem State.byteAt_opS (s : State) {i : Nat} (h : i < 16) : byteAt s.opS i = byteAt s.din i :=
  (byteAt_extractLsb' s.din 0 (by omega)).trans (by rw [Nat.zero_add])

/-- K is DIN[16..32) (R18, R61). -/
theorem State.byteAt_opK (s : State) {i : Nat} (h : i < 16) : byteAt s.opK i = byteAt s.din (16 + i) :=
  byteAt_extractLsb' s.din 16 (by omega)

/-! ### The transforms by bytes -/

theorem byteAt_subBytes (x : Lane) {i : Nat} (h : i < 16) : byteAt (subBytes x) i = sbox (byteAt x i) :=
  byteAt_laneOfBytes _ h

theorem byteAt_invSubBytes (x : Lane) {i : Nat} (h : i < 16) : byteAt (invSubBytes x) i = invSbox (byteAt x i) :=
  byteAt_laneOfBytes _ h

theorem byteAt_shiftRows (x : Lane) {i : Nat} (h : i < 16) : byteAt (shiftRows x) i = byteAt x (srTable.getD i 0) :=
  byteAt_laneOfBytes _ h

theorem byteAt_invShiftRows (x : Lane) {i : Nat} (h : i < 16) : byteAt (invShiftRows x) i = byteAt x (isrTable.getD i 0) :=
  byteAt_laneOfBytes _ h

/-- SR names bytes of a lane (R102). -/
theorem srTable_lt : ∀ i < 16, srTable.getD i 0 < 16 := by decide

/-- ISR names bytes of a lane (R103). -/
theorem isrTable_lt : ∀ i < 16, isrTable.getD i 0 < 16 := by decide

theorem State.byteAt_shiftRows_opS (s : State) {i : Nat} (h : i < 16) :
    byteAt (shiftRows s.opS) i = byteAt s.din (srTable.getD i 0) := by
  rw [byteAt_shiftRows _ h, s.byteAt_opS (srTable_lt i h)]

theorem State.byteAt_invShiftRows_opS (s : State) {i : Nat} (h : i < 16) :
    byteAt (invShiftRows s.opS) i = byteAt s.din (isrTable.getD i 0) := by
  rw [byteAt_invShiftRows _ h, s.byteAt_opS (isrTable_lt i h)]

/-- SR takes row r from r columns further on, which is the rotation left by r (R102). -/
theorem srTable_row : ∀ c < 4, ∀ r < 4, srTable.getD (4 * c + r) 0 = 4 * ((c + r) % 4) + r := by decide

/-- ISR takes row r from r columns back, which is the rotation right by r (R103). -/
theorem isrTable_row : ∀ c < 4, ∀ r < 4, isrTable.getD (4 * c + r) 0 = 4 * ((c + 4 - r) % 4) + r := by decide

/-- Byte 4c + r of a transform of the columns is byte r of the transformed column c (R17). -/
theorem byteAt_onColumns (f : Byte → Byte → Byte → Byte → Nat → Byte) (x : Lane) {c r : Nat} (hc : c < 4) (hr : r < 4) :
    byteAt (onColumns f x) (4 * c + r) =
      f (byteAt x (4 * c)) (byteAt x (4 * c + 1)) (byteAt x (4 * c + 2)) (byteAt x (4 * c + 3)) r := by
  have hcol : (4 * c + r) / 4 = c := by omega
  have hrow : (4 * c + r) % 4 = r := by omega
  rw [onColumns, byteAt_laneOfBytes _ (by omega), hcol, hrow]

/-- The columns of S are the first four columns of DIN (R17, R18). -/
theorem State.byteAt_onColumns_opS (s : State) (f : Byte → Byte → Byte → Byte → Nat → Byte) {c r : Nat} (hc : c < 4)
    (hr : r < 4) : byteAt (onColumns f s.opS) (4 * c + r) =
      f (byteAt s.din (4 * c)) (byteAt s.din (4 * c + 1)) (byteAt s.din (4 * c + 2)) (byteAt s.din (4 * c + 3)) r := by
  have hbyte : ∀ j < 4, byteAt s.opS (4 * c + j) = byteAt s.din (4 * c + j) := fun j hj => s.byteAt_opS (by omega)
  have hfirst : byteAt s.opS (4 * c) = byteAt s.din (4 * c) := hbyte 0 (by decide)
  rw [byteAt_onColumns f _ hc hr, hfirst, hbyte 1 (by decide), hbyte 2 (by decide), hbyte 3 (by decide)]

/-! ### Multiplication by 2 and by 3 -/

/-- Doubling respects XOR: the two reductions cancel where both top bits are set (R212). -/
theorem xtime_xor (x y : Byte) : xtime (x ^^^ y) = xtime x ^^^ xtime y := by
  have hred : (if (x ^^^ y).getLsbD 7 then 0x1B else 0x00 : Byte) =
      (if x.getLsbD 7 then 0x1B else 0x00) ^^^ (if y.getLsbD 7 then 0x1B else 0x00) := by
    rw [BitVec.getLsbD_xor]
    cases x.getLsbD 7 <;> cases y.getLsbD 7 <;> rfl
  rw [xtime, hred, BitVec.shiftLeft_xor_distrib, xtime, xtime]
  ac_rfl

/-- gf_mul only XORs and doubles multiples of its first factor, so a map that keeps 0 and respects XOR and doubling passes
through it (R213). -/
theorem gfMul_map {f : Byte → Byte} (h0 : f 0 = 0) (hxor : ∀ x y, f (x ^^^ y) = f x ^^^ f y)
    (hdbl : ∀ x, f (xtime x) = xtime (f x)) (a b : Byte) : gfMul (f a) b = f (gfMul a b) := by
  have hloop := forUp_rel (R := fun _ p q => p = (f q.1, f q.2)) (f := gfMulTurn b) (g := gfMulTurn b)
    (lo := 0) (hi := 7) (x := (0, f a)) (y := (0, a)) (by decide) (by rw [h0]) fun k p q _ _ h => by
      subst h
      by_cases hbit : b.getLsbD k <;> simp [gfMulTurn, hbit, hxor, hdbl]
  exact congrArg Prod.fst hloop

/-- Multiplication by 1, over the 256 bytes (R213). -/
theorem gfMul_one : ∀ b : Byte, gfMul 0x01 b = b := by decide +kernel

/-- 2·x is xtime(x) (R104, R213). -/
theorem gfMul_two (b : Byte) : gfMul 0x02 b = xtime b := by
  have htwo : (0x02 : Byte) = xtime 0x01 := by decide
  rw [htwo, gfMul_map (by decide) xtime_xor (fun _ => rfl), gfMul_one]

/-- x ⊕ 2·x, the multiple by 3 of R104. -/
def tripled (x : Byte) : Byte := xtime x ^^^ x

theorem tripled_xor (x y : Byte) : tripled (x ^^^ y) = tripled x ^^^ tripled y := by
  rw [tripled, xtime_xor, tripled, tripled]
  ac_rfl

theorem tripled_xtime (x : Byte) : tripled (xtime x) = xtime (tripled x) := (xtime_xor _ _).symm

/-- 3·x is xtime(x) ⊕ x (R104, R213). -/
theorem gfMul_three (b : Byte) : gfMul 0x03 b = xtime b ^^^ b := by
  have hthree : (0x03 : Byte) = tripled 0x01 := by decide
  rw [hthree, gfMul_map (by decide) tripled_xor tripled_xtime, gfMul_one, tripled]

/-! ### The statements -/

/-- Settles O35: the bytes of `subBytes` and `invSubBytes`, and S is DIN's first half. -/
theorem subBytesCommandsReplaceEachByte : Obligations.SubBytesCommandsReplaceEachByte := by
  unfold Obligations.SubBytesCommandsReplaceEachByte
  refine fun s => ⟨⟨_, exec_subbytes s, s.respond_frame _, fun i hi => ?_⟩,
    ⟨_, exec_invsubbytes s, s.respond_frame _, fun i hi => ?_⟩⟩
  · rw [State.respond_dout, byteAt_subBytes _ hi, s.byteAt_opS hi]
  · rw [State.respond_dout, byteAt_invSubBytes _ hi, s.byteAt_opS hi]

/-- Settles O36: the permutation is how `shiftRows` and `invShiftRows` place bytes, and `srTable_row` and `isrTable_row`
read it as a rotation of each row. -/
theorem shiftRowsCommandsRotateTheRows : Obligations.ShiftRowsCommandsRotateTheRows := by
  unfold Obligations.ShiftRowsCommandsRotateTheRows
  refine fun s => ⟨⟨_, exec_shiftrows s, s.respond_frame _, fun c r hc hr => ?_, fun i hi => s.byteAt_shiftRows_opS hi⟩,
    ⟨_, exec_invshiftrows s, s.respond_frame _, fun c r hc hr => ?_, fun i hi => s.byteAt_invShiftRows_opS hi⟩⟩
  · rw [State.respond_dout, s.byteAt_shiftRows_opS (by omega), srTable_row c hc r hr]
  · rw [State.respond_dout, s.byteAt_invShiftRows_opS (by omega), isrTable_row c hc r hr]

/-- Settles O37: row r of `mixByte` at byte 4c + r, with 2·x and 3·x by `gfMul_two` and `gfMul_three`. -/
theorem mixColumnsCommandMixesEachColumn : Obligations.MixColumnsCommandMixesEachColumn := by
  unfold Obligations.MixColumnsCommandMixesEachColumn
  refine fun s => ⟨_, exec_mixcolumns s, s.respond_frame _, fun c hc => ?_⟩
  have hrow (r : Nat) (hr : r < 4) := s.byteAt_onColumns_opS mixByte hc hr
  refine ⟨(hrow 0 (by decide)).trans ?_, (hrow 1 (by decide)).trans ?_, (hrow 2 (by decide)).trans ?_,
    (hrow 3 (by decide)).trans ?_⟩ <;>
    simp only [mixByte, gfMul_two, gfMul_three]

/-- Settles O38: AESIMC answers as INVMIXCOLUMNS does, and row r of `invMixByte` is at byte 4c + r. -/
theorem invMixColumnsCommandsUnmixEachColumn : Obligations.InvMixColumnsCommandsUnmixEachColumn := by
  unfold Obligations.InvMixColumnsCommandsUnmixEachColumn
  refine fun s => ⟨_, exec_invmixcolumns s, exec_aesimc s, s.respond_frame _, fun c hc => ?_⟩
  have hrow (r : Nat) (hr : r < 4) := s.byteAt_onColumns_opS invMixByte hc hr
  exact ⟨hrow 0 (by decide), hrow 1 (by decide), hrow 2 (by decide), hrow 3 (by decide)⟩

/-- Settles O39: a byte of an XOR is the XOR of the bytes, and K is DIN's second half. -/
theorem addRoundKeyCommandXorsTheKey : Obligations.AddRoundKeyCommandXorsTheKey := by
  unfold Obligations.AddRoundKeyCommandXorsTheKey
  refine fun s => ⟨_, exec_addroundkey s, s.respond_frame _, fun i hi => ?_⟩
  rw [State.respond_dout, byteAt_xor, s.byteAt_opS hi, s.byteAt_opK hi]

end Sys2Proof.Machine
end

section
/-! PROOFS. The software key schedule (R130-R136): the word transform byte by byte, as SUBWORD, ROTWORD and KEXPT answer it
(R140-R142), and the recurrence of KeyExpansion, as SETKEY writes it into W (R80). -/

namespace Sys2Proof.Machine

@[simp] theorem exec_subword (s : State) : exec .subword s = .next (s.respond (resultWord (subWord s.opX))) := rfl
@[simp] theorem exec_rotword (s : State) : exec .rotword s = .next (s.respond (resultWord (rotWord s.opX))) := rfl

/-! ### The word transform by bytes -/

section
variable {j : Nat}

theorem getLsbD_beByte (x : Word) (j : Nat) {b : Nat} (hb : b < 8) : (beByte x j).getLsbD b = x.getLsbD (8 * (3 - j) + b) := by
  rw [beByte, BitVec.getLsbD_extractLsb', decide_eq_true hb, Bool.true_and]

@[simp] theorem beByte_xor (x y : Word) (j : Nat) : beByte (x ^^^ y) j = beByte x j ^^^ beByte y j :=
  byteAt_xor x y (3 - j)

theorem beByte_subWord (x : Word) (h : j < 4) : beByte (subWord x) j = sbox (beByte x j) :=
  beByte_packBE (fun j => sbox (beByte x j)) h

/-- The bytes (a, b, c, d) of a word become (b, c, d, a): the left shift supplies the first three, the right shift the last
(R131). -/
theorem beByte_rotWord (x : Word) (h : j < 4) : beByte (rotWord x) j = beByte x ((j + 1) % 4) := by
  apply BitVec.eq_of_getLsbD_eq
  intro b hb
  rw [getLsbD_beByte _ _ hb, getLsbD_beByte _ _ hb, rotWord, BitVec.getLsbD_or, BitVec.getLsbD_shiftLeft,
    BitVec.getLsbD_ushiftRight]
  by_cases h3 : j = 3
  · subst h3
    simp [hb]
  · have hpos : 8 * (3 - j) + b - 8 = 8 * (3 - (j + 1) % 4) + b := by omega
    have hlt : 8 * (3 - j) + b < 32 := by omega
    have hge : ¬ 8 * (3 - j) + b < 8 := by omega
    have hout : x.getLsbD (24 + (8 * (3 - j) + b)) = false := x.getLsbD_of_ge _ (by omega)
    simp [hpos, hlt, hge, hout]

/-- The constant stands in the word's first byte (R132). -/
theorem beByte_rconWord (n j : Nat) : beByte (rconWord n) j = if j = 0 then rcon n else 0 := by
  apply BitVec.eq_of_getLsbD_eq
  intro b hb
  rw [getLsbD_beByte _ _ hb, rconWord, BitVec.getLsbD_shiftLeft, BitVec.getLsbD_setWidth]
  by_cases h0 : j = 0
  · subst h0
    have hlt : 24 + b < 32 := by omega
    have hlt' : b < 32 := by omega
    simp [hlt, hlt']
  · have hlow : 8 * (3 - j) + b < 24 := by omega
    simp [h0, hlow]

/-- T(x, i) byte by byte (R134). -/
theorem beByte_wordT (nk : Nat) (x : Word) (i : Nat) (h : j < 4) :
    beByte (wordT nk x i) j =
      if i % nk = 0 then sbox (beByte x ((j + 1) % 4)) ^^^ (if j = 0 then rcon (i / nk) else 0)
      else if 6 < nk ∧ i % nk = 4 then sbox (beByte x j)
      else beByte x j := by
  unfold wordT
  split
  · rw [beByte_xor, beByte_subWord _ h, beByte_rotWord _ h, beByte_rconWord]
  · split
    · exact beByte_subWord x h
    · rfl

/-- x is DIN[0..4), first byte most significant (R61). -/
theorem State.beByte_opX (s : State) (h : j < 4) : beByte s.opX j = byteAt s.din j :=
  beByte_packBE (byteAt s.din) h

end

/-- The second case of T arises for 256-bit keys only (R134). -/
theorem subWord_case_iff_k256 (k : KeySize) (i : Nat) : (6 < k.nk ∧ i % k.nk = 4) ↔ (k = .k256 ∧ i % 8 = 4) := by
  cases k <;> simp

/-! ### The word commands -/

theorem byteAt_resultWord_word (v : Word) {j : Nat} (h : j < 4) : byteAt (resultWord v) j = beByte v j :=
  (byteAt_resultWord v (by omega)).trans (if_pos h)

theorem byteAt_resultWord_above (v : Word) {j : Nat} (h4 : 4 ≤ j) (h : j < 16) : byteAt (resultWord v) j = 0 :=
  (byteAt_resultWord v h).trans (if_neg (by omega))

/-- KEXPT rejects an index outside [Nk, 4·(Nr+1)) (R142, R244). -/
theorem execKexpt_outside {s : State} {i : Nat} (h : i < s.params.keySize.nk ∨ 4 * (s.params.keySize.nr + 1) ≤ i) :
    execKexpt i s = .next (s.reject .errArg) :=
  if_pos (by simpa [wordIndexOutOfRange] using h)

/-- KEXPT answers T(x, i) for an index inside [Nk, 4·(Nr+1)) (R142). -/
theorem execKexpt_inside {s : State} {i : Nat} (hlo : s.params.keySize.nk ≤ i) (hhi : i < 4 * (s.params.keySize.nr + 1)) :
    execKexpt i s = .next (s.respond (resultWord (wordT s.params.keySize.nk s.opX i))) :=
  if_neg (by simp [wordIndexOutOfRange, hlo, hhi])

/-- Settles O57: `beByte_subWord` and `beByte_rotWord` at the operand's bytes, and zero above the word. -/
theorem wordCommandsByteByByte : Obligations.WordCommandsByteByByte := by
  unfold Obligations.WordCommandsByteByByte
  refine fun s =>
    ⟨⟨_, exec_subword s, s.respond_frame _, fun j hj => ?_, fun i h4 hi => byteAt_resultWord_above _ h4 hi⟩,
      ⟨_, exec_rotword s, s.respond_frame _, fun j hj => ?_, fun i h4 hi => byteAt_resultWord_above _ h4 hi⟩⟩
  · rw [State.respond_dout, byteAt_resultWord_word _ hj, beByte_subWord _ hj, s.beByte_opX hj]
  · rw [State.respond_dout, byteAt_resultWord_word _ hj, beByte_rotWord _ hj, s.beByte_opX (Nat.mod_lt _ (by decide))]

/-- Settles O58: the range check, and inside the range the bytes of T (`beByte_wordT`) at the operand's bytes. -/
theorem kexptAnswersTheWordTransform : Obligations.KexptAnswersTheWordTransform := by
  unfold Obligations.KexptAnswersTheWordTransform
  refine fun s i => ⟨fun hout => execKexpt_outside hout, fun hlo hhi =>
    ⟨_, execKexpt_inside hlo hhi, s.respond_frame _, fun j h4 hj => byteAt_resultWord_above _ h4 hj, fun j hj => ?_⟩⟩
  have hrot : (j + 1) % 4 < 4 := Nat.mod_lt _ (by decide)
  simp only [State.respond_dout, byteAt_resultWord_word _ hj, beByte_wordT _ _ _ hj, s.beByte_opX hj, s.beByte_opX hrot,
    subWord_case_iff_k256]

/-! ### KeyExpansion -/

/-- The words before turn i of KeyExpansion: i of them, and each from the Nk-th on is given by those before it (R133). -/
structure ExpandedBelow (nk i : Nat) (w : List Word) : Prop where
  length : w.length = i
  word : ∀ j, nk ≤ j → j < i → w.getD j 0 = w.getD (j - nk) 0 ^^^ wordT nk (w.getD (j - 1) 0) j

/-- Turn i appends word i and changes none of the words before it, which are all that the recurrence reads. -/
theorem ExpandedBelow.turn {nk i : Nat} {w : List Word} (hnk : 1 ≤ nk) (hi : nk ≤ i) (h : ExpandedBelow nk i w) :
    ExpandedBelow nk (i + 1) (expandWord nk i w) where
  length := by simp [expandWord, h.length]
  word := by
    intro j hj hji
    have hkeep {m : Nat} (hm : m < i) : (expandWord nk i w).getD m 0 = w.getD m 0 :=
      getD_of_extends (List.prefix_append _ _) (by rwa [h.length]) 0
    rw [hkeep (m := j - nk) (by omega), hkeep (m := j - 1) (by omega)]
    by_cases heq : j = i
    · subst heq
      rw [expandWord, List.getD_append_right _ _ _ _ h.length.le, h.length, Nat.sub_self]
      rfl
    · rw [hkeep (by omega), h.word j hj (by omega)]

/-- KeyExpansion obeys its recurrence at every word after the key (R133). -/
theorem keyExpansion_expanded {nk nr : Nat} (hnk : 1 ≤ nk) (hle : nk ≤ 4 * (nr + 1)) (key : Data) :
    ExpandedBelow nk (4 * (nr + 1)) (keyExpansion nk nr key) := by
  have hstart : ExpandedBelow nk nk (keyWords nk key) := ⟨by simp [keyWords], fun j hj hji => absurd hji (by omega)⟩
  exact forUp_rel (R := fun i w _ => ExpandedBelow nk i w) (g := fun _ => id) (y := ()) (hi := 4 * (nr + 1) - 1)
    (by omega) hstart fun i w _ hi _ hw => hw.turn hnk hi

/-- Settles O26: the first Nk words by `keyExpansion_getD`, the rest by the recurrence of `keyExpansion_expanded`. -/
theorem setkeyBuildsTheWordSchedule : Obligations.SetkeyBuildsTheWordSchedule := by
  unfold Obligations.SetkeyBuildsTheWordSchedule
  intro s hp
  obtain ⟨-, hsetkey⟩ := (execSetkey_cases s).resolve_right fun ⟨hhw, _⟩ => by simp [hp] at hhw
  obtain ⟨hnk, hle⟩ : 1 ≤ s.params.keySize.nk ∧ s.params.keySize.nk ≤ 4 * (s.params.keySize.nr + 1) := by
    cases s.params.keySize <;> decide
  refine ⟨_, hsetkey, rfl, keyExpansion_length _ _, fun i hi => ?_, (keyExpansion_expanded hnk hle _).word⟩
  simp (disch := omega) only [keyExpansion_getD _ hi, byteAt_keyOperand]

end Sys2Proof.Machine
end

section
/-! PROOFS. The hardware round commands (R150-R156, R160-R163, R165): each round as one column transform at bytes already moved
and substituted, XORed with the key operand, and the dword operations of AESKEYGENASSIST byte by byte. -/

namespace Sys2Proof.Machine

/-! ### What each command answers -/

@[simp] theorem exec_aesenc (s : State) : exec .aesenc s = .next (s.respond (aesenc s.opS s.opK)) := rfl
@[simp] theorem exec_aesenclast (s : State) : exec .aesenclast s = .next (s.respond (aesenclast s.opS s.opK)) := rfl
@[simp] theorem exec_aesdec (s : State) : exec .aesdec s = .next (s.respond (aesdec s.opS s.opK)) := rfl
@[simp] theorem exec_aesdeclast (s : State) : exec .aesdeclast s = .next (s.respond (aesdeclast s.opS s.opK)) := rfl
@[simp] theorem exec_aeskeygenassist (imm8 : Byte) (s : State) :
    exec (.aeskeygenassist imm8) s = .next (s.respond (aeskeygenassist s.opS imm8)) := rfl

/-! ### The rounds by bytes -/

section
variable (s : State) {c r : Nat}

/-- SubBytes and then ShiftRows of S: row r of column c is the S-box of row r of the column r further on (R151). -/
theorem State.byteAt_shiftRows_subBytes_opS (hc : c < 4) (hr : r < 4) :
    byteAt (shiftRows (subBytes s.opS)) (4 * c + r) = sbox (byteAt s.din (4 * ((c + r) % 4) + r)) := by
  rw [byteAt_shiftRows _ (by omega), srTable_row c hc r hr, byteAt_subBytes _ (by omega), s.byteAt_opS (by omega)]

/-- InvShiftRows and then InvSubBytes of S: row r of column c is the inverse S-box of row r of the column r further back
(R153). -/
theorem State.byteAt_invSubBytes_invShiftRows_opS (hc : c < 4) (hr : r < 4) :
    byteAt (invSubBytes (invShiftRows s.opS)) (4 * c + r) = invSbox (byteAt s.din (4 * ((c + 4 - r) % 4) + r)) := by
  rw [byteAt_invSubBytes _ (by omega), s.byteAt_invShiftRows_opS (by omega), isrTable_row c hc r hr]

/-- A transform of the columns XORed with K: byte r of the transformed column c, XORed with K's byte of that place. -/
theorem State.byteAt_onColumns_xor_opK (f : Byte → Byte → Byte → Byte → Nat → Byte) (x : Lane) (hc : c < 4) (hr : r < 4) :
    byteAt (onColumns f x ^^^ s.opK) (4 * c + r) =
      f (byteAt x (4 * c)) (byteAt x (4 * c + 1)) (byteAt x (4 * c + 2)) (byteAt x (4 * c + 3)) r ^^^
        byteAt s.din (16 + (4 * c + r)) := by
  rw [byteAt_xor, byteAt_onColumns f x hc hr, s.byteAt_opK (by omega)]

/-- AESENC: MixColumns of the bytes of `byteAt_shiftRows_subBytes_opS`, XORed with K (R150). -/
theorem State.byteAt_aesenc (hc : c < 4) (hr : r < 4) :
    byteAt (aesenc s.opS s.opK) (4 * c + r) =
      mixByte (sbox (byteAt s.din (4 * c))) (sbox (byteAt s.din (4 * ((c + 1) % 4) + 1)))
        (sbox (byteAt s.din (4 * ((c + 2) % 4) + 2))) (sbox (byteAt s.din (4 * ((c + 3) % 4) + 3))) r ^^^
        byteAt s.din (16 + (4 * c + r)) := by
  have hrow (j : Nat) (hj : j < 4) := s.byteAt_shiftRows_subBytes_opS hc hj
  have hfirst : byteAt (shiftRows (subBytes s.opS)) (4 * c) = sbox (byteAt s.din (4 * c)) := by
    simpa [Nat.mod_eq_of_lt hc] using hrow 0 (by decide)
  rw [aesenc, mixColumns, s.byteAt_onColumns_xor_opK mixByte _ hc hr, hfirst, hrow 1 (by decide), hrow 2 (by decide),
    hrow 3 (by decide)]

/-- AESDEC: InvMixColumns of the bytes of `byteAt_invSubBytes_invShiftRows_opS`, XORed with K (R152). -/
theorem State.byteAt_aesdec (hc : c < 4) (hr : r < 4) :
    byteAt (aesdec s.opS s.opK) (4 * c + r) =
      invMixByte (invSbox (byteAt s.din (4 * c))) (invSbox (byteAt s.din (4 * ((c + 3) % 4) + 1)))
        (invSbox (byteAt s.din (4 * ((c + 2) % 4) + 2))) (invSbox (byteAt s.din (4 * ((c + 1) % 4) + 3))) r ^^^
        byteAt s.din (16 + (4 * c + r)) := by
  have hrow (j : Nat) (hj : j < 4) := s.byteAt_invSubBytes_invShiftRows_opS hc hj
  have hfirst : byteAt (invSubBytes (invShiftRows s.opS)) (4 * c) = invSbox (byteAt s.din (4 * c)) := by
    simpa [Nat.mod_eq_of_lt hc] using hrow 0 (by decide)
  rw [aesdec, invMixColumns, s.byteAt_onColumns_xor_opK invMixByte _ hc hr, hfirst, hrow 1 (by decide), hrow 2 (by decide),
    hrow 3 (by decide)]
  -- the columns c + 4 - 1, c + 4 - 2 and c + 4 - 3 are c + 3, c + 2 and c + 1
  rfl

end

/-- Settles O43: row r of `mixByte` at byte 4c + r for AESENC (`byteAt_aesenc`), and for AESENCLAST the substituted and
rotated bytes XORed with K. -/
theorem forwardRoundCommandsDoOneRound : Obligations.ForwardRoundCommandsDoOneRound := by
  unfold Obligations.ForwardRoundCommandsDoOneRound
  refine fun s => ⟨⟨_, exec_aesenc s, s.respond_frame _, fun c hc => ?_⟩,
    ⟨_, exec_aesenclast s, s.respond_frame _, fun c r hc hr => ?_⟩⟩
  · have hrow (r : Nat) (hr : r < 4) := s.byteAt_aesenc hc hr
    exact ⟨hrow 0 (by decide), hrow 1 (by decide), hrow 2 (by decide), hrow 3 (by decide)⟩
  · rw [State.respond_dout, aesenclast, byteAt_xor, s.byteAt_shiftRows_subBytes_opS hc hr, s.byteAt_opK (by omega)]

/-- Settles O44: row r of `invMixByte` at byte 4c + r for AESDEC (`byteAt_aesdec`), and for AESDECLAST the rotated and
substituted bytes XORed with K. -/
theorem inverseRoundCommandsDoOneRound : Obligations.InverseRoundCommandsDoOneRound := by
  unfold Obligations.InverseRoundCommandsDoOneRound
  refine fun s => ⟨⟨_, exec_aesdec s, s.respond_frame _, fun c hc => ?_⟩,
    ⟨_, exec_aesdeclast s, s.respond_frame _, fun c r hc hr => ?_⟩⟩
  · have hrow (r : Nat) (hr : r < 4) := s.byteAt_aesdec hc hr
    exact ⟨hrow 0 (by decide), hrow 1 (by decide), hrow 2 (by decide), hrow 3 (by decide)⟩
  · rw [State.respond_dout, aesdeclast, byteAt_xor, s.byteAt_invSubBytes_invShiftRows_opS hc hr, s.byteAt_opK (by omega)]

/-! ### AESKEYGENASSIST by bytes -/

/-- Byte b of an immediate zero-extended to a dword: all of it is byte 0 (R156). -/
theorem byteAt_setWidth_byte (imm8 : Byte) (b : Nat) : byteAt (imm8.setWidth 32) b = if b = 0 then imm8 else 0 := by
  apply BitVec.eq_of_getLsbD_eq
  intro i hi
  rw [getLsbD_byteAt, BitVec.getLsbD_setWidth]
  by_cases h0 : b = 0
  · subst h0
    have h32 : i < 32 := by omega
    simp [hi, h32]
  · have hout : imm8.getLsbD (8 * b + i) = false := imm8.getLsbD_of_ge _ (by omega)
    simp [h0, hout]

section
variable {b : Nat}

/-- SubWordL substitutes each byte in place (R155). -/
theorem byteAt_subWordL (d : Word) (h : b < 4) : byteAt (subWordL d) b = sbox (byteAt d b) := by
  rw [subWordL]
  interval_cases b <;> simp only [byteAt_append_zero, byteAt_append_succ, byteAt_self]

/-- RotWordL is the rotation right by 8 bits (R155). -/
theorem rotWordL_eq_rotateRight (d : Word) : rotWordL d = d.rotateRight 8 := rfl

/-- RotWordL moves each byte one place down, and byte 0 to byte 3 (R155). -/
theorem byteAt_rotWordL (d : Word) (h : b < 4) : byteAt (rotWordL d) b = byteAt d ((b + 1) % 4) := by
  apply BitVec.eq_of_getLsbD_eq
  intro i hi
  rw [rotWordL_eq_rotateRight, getLsbD_byteAt, getLsbD_byteAt, BitVec.getLsbD_rotateRight]
  by_cases h3 : b = 3
  · subst h3
    have hlt : 24 + i < 32 := by omega
    simp [hlt]
  · have hlow : 8 * b + i < 24 := by omega
    have hpos : 8 + (8 * b + i) = 8 * ((b + 1) % 4) + i := by omega
    simp [hlow, hpos]

/-- A dword of AESKEYGENASSIST's first form: the S-box on each byte of a dword of the input (R156). -/
theorem byteAt_subWordL_dword (x : Lane) (j : Nat) (h : b < 4) :
    byteAt (subWordL (dword x j)) b = sbox (byteAt x (4 * j + b)) := by
  rw [byteAt_subWordL _ h, byteAt_dword x j h]

/-- A dword of AESKEYGENASSIST's second form: the first form rotated by a byte, with the immediate in byte 0 (R156). -/
theorem byteAt_rotWordL_subWordL_dword_xor (x : Lane) (imm8 : Byte) (j : Nat) (h : b < 4) :
    byteAt (rotWordL (subWordL (dword x j)) ^^^ imm8.setWidth 32) b =
      sbox (byteAt x (4 * j + (b + 1) % 4)) ^^^ (if b = 0 then imm8 else 0) := by
  have hrot : (b + 1) % 4 < 4 := Nat.mod_lt _ (by decide)
  rw [byteAt_xor, byteAt_rotWordL _ h, byteAt_subWordL_dword x j hrot, byteAt_setWidth_byte]

end

/-! ### The dwords of AESKEYGENASSIST (R156) -/

section
variable (x : Lane) (imm8 : Byte)

theorem dword_aeskeygenassist_zero : dword (aeskeygenassist x imm8) 0 = subWordL (dword x 1) :=
  dword_laneOfDwords_zero _ _ _ _

theorem dword_aeskeygenassist_one :
    dword (aeskeygenassist x imm8) 1 = rotWordL (subWordL (dword x 1)) ^^^ imm8.setWidth 32 :=
  dword_laneOfDwords_one _ _ _ _

theorem dword_aeskeygenassist_two : dword (aeskeygenassist x imm8) 2 = subWordL (dword x 3) :=
  dword_laneOfDwords_two _ _ _ _

theorem dword_aeskeygenassist_three :
    dword (aeskeygenassist x imm8) 3 = rotWordL (subWordL (dword x 3)) ^^^ imm8.setWidth 32 :=
  dword_laneOfDwords_three _ _ _ _

end

/-- Settles O45: byte 4j + b of DOUT is byte b of dword j, which is one of the two forms of dword 1 or 3 of S. -/
theorem keygenAssistCommandByteByByte : Obligations.KeygenAssistCommandByteByByte := by
  unfold Obligations.KeygenAssistCommandByteByByte
  refine fun s imm8 => ⟨_, exec_aeskeygenassist imm8 s, s.respond_frame _, fun b hb => ?_⟩
  have hout (j : Nat) := byteAt_dword (aeskeygenassist s.opS imm8) j hb
  have hfirst := hout 0
  rw [Nat.mul_zero, Nat.zero_add] at hfirst
  refine ⟨hfirst.symm.trans ?_, (hout 1).symm.trans ?_, (hout 2).symm.trans ?_, (hout 3).symm.trans ?_⟩
  · rw [dword_aeskeygenassist_zero, byteAt_subWordL_dword _ _ hb, s.byteAt_opS (by omega)]
  · rw [dword_aeskeygenassist_one, byteAt_rotWordL_subWordL_dword_xor _ _ _ hb, s.byteAt_opS (by omega)]
  · rw [dword_aeskeygenassist_two, byteAt_subWordL_dword _ _ hb, s.byteAt_opS (by omega)]
  · rw [dword_aeskeygenassist_three, byteAt_rotWordL_subWordL_dword_xor _ _ _ hb, s.byteAt_opS (by omega)]

end Sys2Proof.Machine
end

section
/-! PROOFS. The hardware key schedule at the interface (R80, R83, R190, R192): the two lane schedules SETKEY builds, and the
round key that RDRK answers or its rejection. -/

namespace Sys2Proof.Machine

/-! ### SETKEY on the hardware path -/

/-- All that SETKEY does on the hardware path (R80). -/
theorem execSetkey_hw {s : State} (hp : s.params.path = .hw) :
    execSetkey s = .next
      { s with
        rk := hwExpand s.params.keySize (keyOperand s.params.keySize s.din)
        drk := deriveInverse s.params.keySize.nr (hwExpand s.params.keySize (keyOperand s.params.keySize s.din))
        keyValid := true, status := 0x00, dout := 0 } :=
  ((execSetkey_cases s).resolve_left fun ⟨hsw, _⟩ => by simp [hp] at hsw).2

/-- Settles O27: DRK is DeriveInverse of RK (`execSetkey_hw`), whose ends and mirrored inner entries `deriveInverse_mirrored`
gives. -/
theorem setkeyBuildsBothLaneSchedules : Obligations.SetkeyBuildsBothLaneSchedules := by
  unfold Obligations.SetkeyBuildsBothLaneSchedules
  intro s hp
  have hnr : 1 ≤ s.params.keySize.nr := by cases s.params.keySize <;> decide
  have hdrk := deriveInverse_mirrored (hwExpand s.params.keySize (keyOperand s.params.keySize s.din)) hnr
  exact ⟨_, execSetkey_hw hp, rfl, rfl, hwExpand_length _ _, hdrk.length, hdrk.first, hdrk.last,
    fun i h1 hi => hdrk.inner i h1 (by omega)⟩

/-! ### RDRK -/

/-- RDRK of a round above Nr is rejected, whichever schedule it asks for (R83, R244). -/
theorem execRdrk_aboveNr {s : State} {r : Nat} (sel : Sel) (hv : s.keyValid = true) (hr : s.params.keySize.nr < r) :
    execRdrk r sel s = .next (s.reject .errArg) := by
  have hrange : roundOutOfRange s.params.keySize r = true := decide_eq_true hr
  rw [execRdrk.eq_def, State.needKey_valid hv, if_pos hrange]

/-- RDRK dec is rejected on the software path, whichever round it asks for (R83, R244). -/
theorem execRdrk_dec_sw {s : State} (r : Nat) (hv : s.keyValid = true) (hp : s.params.path = .sw) :
    execRdrk r .dec s = .next (s.reject .errArg) := by
  have hsel : selOutOfRange s.params.path .dec = true := by simp [selOutOfRange, hp]
  rw [execRdrk.eq_def, State.needKey_valid hv, if_pos hsel, ite_self]

theorem State.roundKey_sw {s : State} (hp : s.params.path = .sw) (r : Nat) : s.roundKey r = laneOf s.w r := by
  simp only [State.roundKey, hp]

/-- Byte j of column c of LaneOf(W, r) is byte j of the big-endian word W[4r + c] (R192). -/
theorem byteAt_laneOf_column (w : List Word) (r : Nat) {c j : Nat} (hc : c < 4) (hj : j < 4) :
    byteAt (laneOf w r) (4 * c + j) = beByte (w.getD (4 * r + c) 0) j := by
  have hcol : (4 * c + j) / 4 = c := by omega
  have hrow : (4 * c + j) % 4 = j := by omega
  rw [byteAt_laneOf _ _ (by omega), hcol, hrow]

/-- Settles O31: the KEY_VALID guard, the two argument checks, and then `execRdrk_fwd` on each path, with the bytes of LaneOf
by `byteAt_laneOf_column`, and `execRdrk_dec`. -/
theorem rdrkAnswersOneRoundKey : Obligations.RdrkAnswersOneRoundKey := by
  unfold Obligations.RdrkAnswersOneRoundKey
  refine fun s r sel => ⟨fun hv => s.needKey_invalid hv _, fun hv hr => execRdrk_aboveNr sel hv hr, ?_, ?_, ?_, ?_⟩
  · rintro hv hp rfl
    exact execRdrk_dec_sw r hv hp
  · rintro hv hr hp rfl
    refine ⟨_, execRdrk_fwd hv hr, s.respond_frame _, fun c j hc hj => ?_⟩
    rw [State.respond_dout, State.roundKey_sw hp, byteAt_laneOf_column s.w r hc hj]
  · rintro hv hr hp rfl
    rw [exec_rdrk, execRdrk_fwd hv hr, State.roundKey_hw hp]
    rfl
  · rintro hv hr hp rfl
    exact execRdrk_dec hv hp hr

end Sys2Proof.Machine
end

section
/-! PROOFS. The GF(2⁸) commands (R212, R213, R220, R221): xtime as a number, and gf_mul's loop as the sum of the multiples of a
that the bits of b select. -/

namespace Sys2Proof.Machine

@[simp] theorem exec_xtime (s : State) : exec .xtime s = .next (s.respond (resultByte (xtime (byteAt s.din 0)))) := rfl
@[simp] theorem exec_gfmul (s : State) :
    exec .gfmul s = .next (s.respond (resultByte (gfMul (byteAt s.din 0) (byteAt s.din 1)))) := rfl

theorem byteAt_resultByte_zero (b : Byte) : byteAt (resultByte b) 0 = b := byteAt_resultByte b (by decide)

theorem byteAt_resultByte_above (b : Byte) {i : Nat} (h1 : 1 ≤ i) (h : i < 16) : byteAt (resultByte b) i = 0 :=
  (byteAt_resultByte b h).trans (if_neg (by omega))

/-! ### Doubling as a number -/

/-- The bit that xtime tests is set in the bytes from 128 on. -/
theorem getLsbD_seven_eq_decide (n : Byte) : n.getLsbD 7 = decide (128 ≤ n.toNat) :=
  n.msb_eq_getLsbD_last.symm.trans n.msb_eq_decide

/-- Below 128 doubling does not leave the byte; from 128 on the shift drops 256 and the reduction follows (R212). -/
theorem xtime_toNat (n : Byte) :
    (xtime n).toNat = if n.toNat < 128 then 2 * n.toNat else (2 * n.toNat - 256) ^^^ 0x1B := by
  have hlt : n.toNat < 256 := n.isLt
  have hshift : (n <<< 1).toNat = 2 * n.toNat % 256 := by
    rw [BitVec.toNat_shiftLeft, Nat.shiftLeft_eq, Nat.mul_comm]
  rw [xtime, BitVec.toNat_xor, hshift, getLsbD_seven_eq_decide]
  by_cases hsmall : n.toNat < 128
  · have hmod : 2 * n.toNat % 256 = 2 * n.toNat := by omega
    simp [hsmall, Nat.not_le_of_lt hsmall, hmod]
  · have hmod : 2 * n.toNat % 256 = 2 * n.toNat - 256 := by omega
    simp [hsmall, Nat.le_of_not_lt hsmall, hmod]

/-- Settles O52: byte 0 of the one-byte result by `xtime_toNat`, and zero above it. -/
theorem xtimeCommandDoubles : Obligations.XtimeCommandDoubles := by
  unfold Obligations.XtimeCommandDoubles
  refine fun s => ⟨_, exec_xtime s, s.respond_frame _, ?_, fun i h1 hi => byteAt_resultByte_above _ h1 hi⟩
  rw [State.respond_dout, byteAt_resultByte_zero, xtime_toNat]

/-! ### The loop of gf_mul as a sum -/

/-- The XOR of a·2^k over the bits k < n that are set in b, the least significant first (R213). -/
def sumOfDoubles (a b : Byte) (n : Nat) : Byte :=
  (List.range n).foldl (fun r k => if b.getLsbD k then r ^^^ xtime^[k] a else r) 0

theorem sumOfDoubles_succ (a b : Byte) (n : Nat) :
    sumOfDoubles a b (n + 1) = if b.getLsbD n then sumOfDoubles a b n ^^^ xtime^[n] a else sumOfDoubles a b n := by
  rw [sumOfDoubles, List.range_succ, List.foldl_append]
  rfl

/-- Turn k of the loop adds a·2^k to the sum if bit k of b is set, and doubles it for the next turn. -/
theorem gfMulTurn_sumOfDoubles (a b : Byte) (k : Nat) :
    gfMulTurn b k (sumOfDoubles a b k, xtime^[k] a) = (sumOfDoubles a b (k + 1), xtime^[k + 1] a) := by
  rw [gfMulTurn, sumOfDoubles_succ, Function.iterate_succ_apply']

/-- The product is the sum over the eight bits of b: before turn k the loop holds the sum below k and a·2^k. -/
theorem gfMul_eq_sumOfDoubles (a b : Byte) : gfMul a b = sumOfDoubles a b 8 := by
  have hloop := forUp_rel (R := fun k p _ => p = (sumOfDoubles a b k, xtime^[k] a)) (f := gfMulTurn b) (g := fun _ => id)
    (lo := 0) (hi := 7) (x := (0, a)) (y := ()) (by decide) rfl fun k p _ _ _ h => by
      rw [h, gfMulTurn_sumOfDoubles]
  exact congrArg Prod.fst hloop

/-- Settles O53: byte 0 of the one-byte result by `gfMul_eq_sumOfDoubles`, and zero above it. -/
theorem gfmulCommandMultiplies : Obligations.GfmulCommandMultiplies := by
  unfold Obligations.GfmulCommandMultiplies
  refine fun s => ⟨_, exec_gfmul s, s.respond_frame _, ?_, fun i h1 hi => byteAt_resultByte_above _ h1 hi⟩
  rw [State.respond_dout, byteAt_resultByte_zero, gfMul_eq_sumOfDoubles, sumOfDoubles]

end Sys2Proof.Machine
end

section
/-! PROOFS. Rejections, the idle step and instances side by side (R240-R244, R252, R254). `State.statusOf` says once which STATUS a
legal command ends in, so a transaction's STATUS is its word's verdict. -/

namespace Sys2Proof.Machine

/-! ### Idle, and several instances -/

/-- Settles O9: the first arm of `step`. -/
theorem idleStepKeepsAllState : Obligations.IdleStepKeepsAllState := by
  unfold Obligations.IdleStepKeepsAllState
  intro s hidle
  simp only [step, hidle]

/-- All that a step of instance n can do: nothing when n names no instance, else that instance's own step (R252). -/
theorem stepInstance_cases {n : Nat} {sys sys' : List State} (h : stepInstance n sys = .next sys') :
    (sys[n]? = none ∧ sys' = sys) ∨
    (∃ s t : State, sys[n]? = some s ∧ step s = .next t ∧ sys' = sys.set n t) := by
  unfold stepInstance at h
  split at h
  case h_1 hnone =>
    cases h
    exact .inl ⟨hnone, rfl⟩
  case h_2 s hs =>
    split at h
    case h_1 t ht =>
      cases h
      exact .inr ⟨s, t, hs, ht, rfl⟩
    case h_2 => cases h
    case h_3 => cases h

/-- Settles O25: `stepInstance_cases`; the next state is written at n and nowhere else. -/
theorem otherInstancesAreUntouched : Obligations.OtherInstancesAreUntouched := by
  unfold Obligations.OtherInstancesAreUntouched
  intro sys sys' n h
  obtain ⟨hnone, rfl⟩ | ⟨s, t, hs, ht, rfl⟩ := stepInstance_cases h
  · exact ⟨fun _ _ => rfl, fun s hs => by simp [hnone] at hs⟩
  · refine ⟨fun m hm => List.getElem?_set_ne hm.symm, fun s' hs' => ?_⟩
    obtain rfl : s = s' := Option.some.inj (hs.symm.trans hs')
    obtain ⟨hn, -⟩ := List.getElem?_eq_some_iff.mp hs
    exact ⟨t, ht, List.getElem?_set_self hn⟩

/-! ### What a transaction can do -/

/-- All that a transaction can do: reject an illegal word (R63), or run a legal word's command (R48) and retire it (R51). -/
theorem issue_cases {s t : State} {cmd : Word} {din : Data} (h : issue s cmd din = .next t) :
    (∃ e, decode cmd = .error e ∧ t = s.reject .errIllegal) ∨
    (∃ i u, decode cmd = .ok i ∧ exec i (s.present cmd din) = .next u ∧ t = { u with inbox := s.inbox }) := by
  cases hd : decode cmd with
  | error e =>
    rw [issue_error s din hd] at h
    cases h
    exact .inl ⟨e, rfl, rfl⟩
  | ok i =>
    rw [issue_ok s din hd] at h
    obtain ⟨u, hu, rfl⟩ := retire_eq_next h
    exact .inr ⟨i, u, rfl, hu, rfl⟩

/-- A command that does not answer OK has changed STATUS and set DOUT to 0, and nothing else (R241). -/
theorem exec_rejection {i : Instr} {s t : State} (h : exec i s = .next t) (hstatus : t.status ≠ 0x00) :
    t = { s with status := t.status, dout := 0 } := by
  by_cases hi : i = .setkey
  · subst hi
    exact absurd (execSetkey_response h).1 hstatus
  · obtain ⟨v, hv⟩ | ⟨c, -, hc⟩ := exec_answers hi s
    · cases hv.symm.trans h
      exact absurd (s.respond_status v) hstatus
    · cases hc.symm.trans h
      rfl

/-- Settles O18: `issue_cases`, and for a legal word `exec_rejection`. -/
theorem rejectionChangesStatusAndDoutOnly : Obligations.RejectionChangesStatusAndDoutOnly := by
  unfold Obligations.RejectionChangesStatusAndDoutOnly
  intro s t cmd din h hstatus
  obtain ⟨e, -, rfl⟩ | ⟨i, u, -, hu, rfl⟩ := issue_cases h
  · rfl
  · have hframe : u = { s.present cmd din with status := u.status, dout := 0 } := exec_rejection hu hstatus
    rw [hframe]
    rfl

/-! ### The STATUS of a legal command -/

/-- The STATUS of a command whose argument is or is not out of range (R244). -/
def argStatus (outOfRange : Bool) : StatusCode := if outOfRange then .errArg else .ok

/-- The STATUS of a command that needs a key and, having one, ends in `c` (R242, R243). -/
def State.keyedStatus (s : State) (c : StatusCode) : StatusCode := if s.keyValid then c else .errNoKey

/-- The STATUS each legal command ends in: the key is checked before the argument, and only these four commands check
anything (R242-R244). -/
def State.statusOf (s : State) : Instr → StatusCode
  | .encrypt => s.keyedStatus .ok
  | .decrypt => s.keyedStatus .ok
  | .rdrk r sel => s.keyedStatus (argStatus (roundOutOfRange s.params.keySize r || selOutOfRange s.params.path sel))
  | .kexpt j => argStatus (wordIndexOutOfRange s.params.keySize j)
  | _ => .ok

section
variable {s t : State}

/-- The KEY_VALID guard adds ERR_NOKEY to what the guarded command ends in (R242). -/
theorem State.needKey_status {run : Host.Outcome State Fault Refusal} {c : StatusCode}
    (hrun : ∀ t, run = .next t → t.status = c.code) (h : s.needKey run = .next t) : t.status = (s.keyedStatus c).code := by
  unfold State.keyedStatus
  obtain ⟨hv, hkey⟩ | ⟨hv, hkey⟩ := s.needKey_cases run
  · rw [hkey] at h
    rw [if_pos hv]
    exact hrun t h
  · cases hkey.symm.trans h
    rw [if_neg (by simp [hv])]
    exact s.reject_status .errNoKey

theorem execEncrypt_status (h : execEncrypt s = .next t) : t.status = (s.keyedStatus .ok).code := by
  refine State.needKey_status (fun u hu => ?_) h
  split at hu <;>
    · cases hu
      rfl

theorem execDecrypt_status (h : execDecrypt s = .next t) : t.status = (s.keyedStatus .ok).code := by
  refine State.needKey_status (fun u hu => ?_) h
  split at hu <;>
    · cases hu
      rfl

theorem execRdrk_status {r : Nat} {sel : Sel} (h : execRdrk r sel s = .next t) :
    t.status = (s.statusOf (.rdrk r sel)).code := by
  refine State.needKey_status (fun u hu => ?_) h
  split at hu
  case isTrue hr =>
    cases hu
    simp [argStatus, hr]
  case isFalse hr =>
    split at hu
    case isTrue hsel =>
      cases hu
      simp [argStatus, hsel]
    case isFalse hsel =>
      have hok : u.status = StatusCode.ok.code := by
        split at hu
        · cases hu
          rfl
        · split at hu <;>
            · cases hu
              rfl
      simpa [argStatus, hr, hsel] using hok

theorem execKexpt_status {j : Nat} (h : execKexpt j s = .next t) : t.status = (s.statusOf (.kexpt j)).code := by
  unfold execKexpt at h
  split at h
  case isTrue hj =>
    cases h
    simp [State.statusOf, argStatus, hj]
  case isFalse hj =>
    cases h
    simp [State.statusOf, argStatus, hj, StatusCode.code]

/-- Every command ends in the STATUS `State.statusOf` gives it. -/
theorem exec_status {i : Instr} (h : exec i s = .next t) : t.status = (s.statusOf i).code := by
  cases i
  case setkey => exact (execSetkey_response h).1
  case encrypt => exact execEncrypt_status h
  case decrypt => exact execDecrypt_status h
  case rdrk r sel => exact execRdrk_status h
  case kexpt j => exact execKexpt_status h
  all_goals
    cases h
    rfl

/-- The request itself has no part in the STATUS of its command. -/
@[simp] theorem State.present_statusOf (s : State) (cmd : Word) (din : Data) (i : Instr) :
    (s.present cmd din).statusOf i = s.statusOf i := rfl

/-- A transaction ends in a STATUS other than ERR_ILLEGAL exactly when its word is legal and its command ends in that (R240). -/
theorem issue_status_iff {cmd : Word} {din : Data} (h : issue s cmd din = .next t) {c : StatusCode} (hc : c ≠ .errIllegal) :
    t.status = c.code ↔ ∃ i : Instr, decode cmd = .ok i ∧ s.statusOf i = c := by
  obtain ⟨e, hd, rfl⟩ | ⟨i, u, hd, hu, rfl⟩ := issue_cases h
  · simp only [hd, reduceCtorEq, false_and, exists_false, iff_false]
    exact fun hs => hc (StatusCode.code_injective (c := .errIllegal) hs).symm
  · have hstatus := exec_status hu
    rw [State.present_statusOf] at hstatus
    simp only [hd, hstatus, Except.ok.injEq, exists_eq_left']
    exact ⟨StatusCode.code_injective, congrArg _⟩

/-! ### Which commands end in ERR_NOKEY and in ERR_ARG -/

@[simp] theorem argStatus_ne_errNoKey (outOfRange : Bool) : argStatus outOfRange ≠ .errNoKey := by
  cases outOfRange <;> decide

@[simp] theorem argStatus_eq_errArg_iff (outOfRange : Bool) : argStatus outOfRange = .errArg ↔ outOfRange = true := by
  cases outOfRange <;> decide

/-- A command that checks the key answers ERR_NOKEY exactly without one, whatever it would do with one (R242, R243). -/
theorem State.keyedStatus_eq_errNoKey_iff {c : StatusCode} (hc : c ≠ .errNoKey) :
    s.keyedStatus c = .errNoKey ↔ s.keyValid = false := by
  unfold State.keyedStatus
  cases s.keyValid <;> simp [hc]

theorem State.keyedStatus_eq_errArg_iff {c : StatusCode} :
    s.keyedStatus c = .errArg ↔ s.keyValid = true ∧ c = .errArg := by
  unfold State.keyedStatus
  cases s.keyValid <;> simp

theorem roundOutOfRange_iff {k : KeySize} {r : Nat} : roundOutOfRange k r = true ↔ k.nr < r := decide_eq_true_iff

theorem selOutOfRange_iff {p : Path} {sel : Sel} : selOutOfRange p sel = true ↔ sel = .dec ∧ p = .sw := by
  cases p <;> cases sel <;> decide

theorem wordIndexOutOfRange_iff {k : KeySize} {j : Nat} :
    wordIndexOutOfRange k j = true ↔ j < k.nk ∨ 4 * (k.nr + 1) ≤ j := by
  simp [wordIndexOutOfRange]

/-- The commands that answer ERR_NOKEY (R242). -/
theorem State.statusOf_eq_errNoKey_iff {i : Instr} :
    s.statusOf i = .errNoKey ↔
      s.keyValid = false ∧ (i = .encrypt ∨ i = .decrypt ∨ ∃ (r : Nat) (sel : Sel), i = .rdrk r sel) := by
  cases i
  case encrypt => simp [State.statusOf, State.keyedStatus_eq_errNoKey_iff]
  case decrypt => simp [State.statusOf, State.keyedStatus_eq_errNoKey_iff]
  case rdrk r sel => simp [State.statusOf, State.keyedStatus_eq_errNoKey_iff]
  all_goals simp [State.statusOf]

/-- The commands that answer ERR_ARG (R244). -/
theorem State.statusOf_eq_errArg_iff {i : Instr} :
    s.statusOf i = .errArg ↔
      (∃ (r : Nat) (sel : Sel), i = .rdrk r sel ∧ s.keyValid = true ∧
        (s.params.keySize.nr < r ∨ (sel = .dec ∧ s.params.path = .sw))) ∨
      (∃ j : Nat, i = .kexpt j ∧ (j < s.params.keySize.nk ∨ 4 * (s.params.keySize.nr + 1) ≤ j)) := by
  cases i
  case encrypt => simp [State.statusOf, State.keyedStatus_eq_errArg_iff]
  case decrypt => simp [State.statusOf, State.keyedStatus_eq_errArg_iff]
  case rdrk r sel =>
    simp [State.statusOf, State.keyedStatus_eq_errArg_iff, roundOutOfRange_iff, selOutOfRange_iff]
  case kexpt j => simp [State.statusOf, wordIndexOutOfRange_iff]
  all_goals simp [State.statusOf]

end

/-- Settles O19: a transaction's STATUS is its command's (`issue_status_iff`), and `State.statusOf_eq_errNoKey_iff`. -/
theorem noKeyErrorExactlyWithoutAKey : Obligations.NoKeyErrorExactlyWithoutAKey := by
  unfold Obligations.NoKeyErrorExactlyWithoutAKey
  intro s t cmd din h
  refine (issue_status_iff h (c := .errNoKey) (by decide)).trans ?_
  simp only [State.statusOf_eq_errNoKey_iff]
  cases decode cmd with
  | error e => simp
  | ok i => simp

/-- Settles O20: a transaction's STATUS is its command's (`issue_status_iff`), and `State.statusOf_eq_errArg_iff`. -/
theorem argErrorExactlyOutOfRange : Obligations.ArgErrorExactlyOutOfRange := by
  unfold Obligations.ArgErrorExactlyOutOfRange
  intro s t cmd din h
  refine (issue_status_iff h (c := .errArg) (by decide)).trans ?_
  simp only [State.statusOf_eq_errArg_iff]
  cases decode cmd with
  | error e => simp
  | ok i => simp

end Sys2Proof.Machine
end

section
/-! PROOFS. Runs and what a host can see of them (R260-R264, R270): every step answers, two states that a host cannot tell apart
answer alike, and a reset or a SETKEY leaves no trace of what stood in the schedule storage. -/

namespace Sys2Proof.Machine

/-! ### Every command and every step answers -/

/-- Every command completes (R270). -/
theorem exec_completes (i : Instr) (s : State) : ∃ t : State, exec i s = .next t := by
  by_cases hi : i = .setkey
  · subst hi
    obtain ⟨t, ht, -⟩ := execSetkey_keyed s
    exact ⟨t, ht⟩
  · obtain ⟨v, hv⟩ | ⟨c, -, hc⟩ := exec_answers hi s
    · exact ⟨_, hv⟩
    · exact ⟨_, hc⟩

/-- So does every step: the idle one (R254), a reset, a rejection and a command. -/
theorem step_completes (s : State) : ∃ t : State, step s = .next t := by
  unfold step
  split
  · exact ⟨s, rfl⟩
  · exact ⟨_, rfl⟩
  · exact ⟨_, rfl⟩
  · split
    · next i _ =>
        obtain ⟨u, hu⟩ := exec_completes i s
        exact ⟨_, congrArg (retire _) hu⟩
    · exact ⟨_, rfl⟩

/-- Settles O13: `step_completes`, at each step of the run. -/
theorem everyRunIsSafe : Obligations.EveryRunIsSafe := by
  unfold Obligations.EveryRunIsSafe
  intro s n
  induction n generalizing s with
  | zero => exact ⟨s, run_zero s⟩
  | succ n ih =>
    obtain ⟨t, ht⟩ := step_completes s
    rw [run_succ_of_next n ht]
    exact ih t

/-! ### The same answer from two states -/

/-- ENCRYPT's cipher over the schedule of the path (R81). -/
def State.cipher (s : State) (b : Lane) : Lane :=
  match s.params.path with
  | .sw => swCipher s.params.keySize.nr b s.w
  | .hw => hwCipher s.params.keySize.nr b s.rk

/-- DECRYPT's inverse cipher over the schedule of the path (R82). -/
def State.invCipher (s : State) (b : Lane) : Lane :=
  match s.params.path with
  | .sw => swInvCipher s.params.keySize.nr b s.w
  | .hw => hwInvCipher s.params.keySize.nr b s.drk

/-- ENCRYPT answers the cipher of S, with a key (R81). -/
theorem execEncrypt_eq (s : State) : execEncrypt s = s.needKey (.next (s.respond (s.cipher s.opS))) := by
  rw [execEncrypt, State.cipher]
  cases s.params.path <;> rfl

/-- DECRYPT answers the inverse cipher of S, with a key (R82). -/
theorem execDecrypt_eq (s : State) : execDecrypt s = s.needKey (.next (s.respond (s.invCipher s.opS))) := by
  rw [execDecrypt, State.invCipher]
  cases s.params.path <;> rfl

/-- The outcomes of one command at `s` and at `t`: the same response, or a rejection with the same code. -/
inductive AnswersAlike (s t : State) : Host.Outcome State Fault Refusal → Host.Outcome State Fault Refusal → Prop
  | respond {v v' : Lane} (h : v = v') : AnswersAlike s t (.next (s.respond v)) (.next (t.respond v'))
  | reject (c : StatusCode) : AnswersAlike s t (.next (s.reject c)) (.next (t.reject c))

section
variable {s t : State}

theorem AnswersAlike.needKey {run run' : Host.Outcome State Fault Refusal} (hv : s.keyValid = t.keyValid)
    (h : s.keyValid = true → AnswersAlike s t run run') : AnswersAlike s t (s.needKey run) (t.needKey run') := by
  cases hs : s.keyValid with
  | true =>
    rw [State.needKey_valid hs, State.needKey_valid (hv ▸ hs)]
    exact h hs
  | false =>
    rw [State.needKey_invalid hs, State.needKey_invalid (hv ▸ hs)]
    exact .reject .errNoKey

/-- RDRK without a key and RDRK above Nr are rejected, whatever the schedule (R83, R242-R244). -/
theorem AnswersAlike.rdrk {r : Nat} {sel : Sel} (hk : s.params.keySize = t.params.keySize) (hv : s.keyValid = t.keyValid)
    (h : s.keyValid = true → r ≤ s.params.keySize.nr → AnswersAlike s t (execRdrk r sel s) (execRdrk r sel t)) :
    AnswersAlike s t (execRdrk r sel s) (execRdrk r sel t) := by
  by_cases hs : s.keyValid = true
  · by_cases hr : r ≤ s.params.keySize.nr
    · exact h hs hr
    · have hr' : s.params.keySize.nr < r := Nat.lt_of_not_le hr
      rw [execRdrk_aboveNr sel hs hr', execRdrk_aboveNr sel (hv ▸ hs) (hk ▸ hr')]
      exact .reject .errArg
  · exact .needKey hv fun hs' => absurd hs' hs

/-- Two states with one KEY_BITS and one request at the head of the inbox whose loaded keys, if any, do the same on a block
and give the same round keys. PATH may differ. -/
structure State.SameFunctions (s t : State) : Prop where
  keySize : s.params.keySize = t.params.keySize
  keyValid : s.keyValid = t.keyValid
  din : s.din = t.din
  cipher : s.keyValid = true → ∀ b, s.cipher b = t.cipher b
  invCipher : s.keyValid = true → ∀ b, s.invCipher b = t.invCipher b
  roundKey : s.keyValid = true → ∀ r ≤ s.params.keySize.nr, s.roundKey r = t.roundKey r

/-- Such states answer every command but SETKEY and RDRK dec alike. -/
theorem State.SameFunctions.exec (h : s.SameFunctions t) {i : Instr} (hi : i ≠ .setkey) (hdec : ∀ r, i ≠ .rdrk r .dec) :
    AnswersAlike s t (exec i s) (exec i t) := by
  have hS : s.opS = t.opS := congrArg (·.extractLsb' 0 128) h.din
  have hK : s.opK = t.opK := congrArg (·.extractLsb' 128 128) h.din
  have hX : s.opX = t.opX := by simp only [State.opX, h.din]
  cases i
  case setkey => exact absurd rfl hi
  case encrypt =>
    rw [exec_encrypt, exec_encrypt, execEncrypt_eq, execEncrypt_eq, hS]
    exact .needKey h.keyValid fun hv => .respond (h.cipher hv _)
  case decrypt =>
    rw [exec_decrypt, exec_decrypt, execDecrypt_eq, execDecrypt_eq, hS]
    exact .needKey h.keyValid fun hv => .respond (h.invCipher hv _)
  case rdrk r sel =>
    obtain rfl : sel = .fwd := by
      cases sel
      · rfl
      · exact absurd rfl (hdec r)
    refine .rdrk h.keySize h.keyValid fun hv hr => ?_
    rw [execRdrk_fwd hv hr, execRdrk_fwd (h.keyValid ▸ hv) (h.keySize ▸ hr)]
    exact .respond (h.roundKey hv r hr)
  case xtime => exact .respond (by rw [State.opA, State.opA, h.din])
  case gfmul => exact .respond (by rw [State.opA, State.opA, State.opB, State.opB, h.din])
  case kexpt j =>
    rw [exec_kexpt, exec_kexpt, execKexpt, execKexpt, h.keySize, hX]
    split
    · exact .reject .errArg
    · exact .respond rfl
  all_goals exact .respond (by simp only [hS, hK, hX])

/-! ### What a host can see -/

namespace State.SameToHost

/-- Two states that a host cannot tell apart read the same DIN. -/
theorem din (h : s.SameToHost t) : s.din = t.din := by
  simp only [State.din, h.inbox]

theorem setInbox (h : s.SameToHost t) (rest : List Input) :
    State.SameToHost { s with inbox := rest } { t with inbox := rest } :=
  { h with inbox := rfl }

theorem respond (h : s.SameToHost t) (v : Lane) : (s.respond v).SameToHost (t.respond v) :=
  { h with status := rfl, dout := rfl }

theorem reject (h : s.SameToHost t) (c : StatusCode) : (s.reject c).SameToHost (t.reject c) :=
  { h with status := rfl, dout := rfl }

/-- After a reset no schedule is valid, so nothing is asked of the free values it leaves there (R261). -/
theorem hardReset (h : s.SameToHost t) : s.hardReset.SameToHost t.hardReset where
  params := h.params
  keyValid := rfl
  status := rfl
  dout := rfl
  inbox := h.inbox
  w := fun hv => absurd hv (by simp)
  rk := fun hv => absurd hv (by simp)
  drk := fun hv => absurd hv (by simp)

/-- While a key is loaded the arrays of the PATH are the same, so everything read from them is. -/
theorem sameFunctions (h : s.SameToHost t) : s.SameFunctions t where
  keySize := congrArg Params.keySize h.params
  keyValid := h.keyValid
  din := h.din
  cipher hv b := by
    rw [State.cipher, State.cipher, ← h.params]
    cases hp : s.params.path with
    | sw => simp only [h.w hv hp]
    | hw => simp only [h.rk hv hp]
  invCipher hv b := by
    rw [State.invCipher, State.invCipher, ← h.params]
    cases hp : s.params.path with
    | sw => simp only [h.w hv hp]
    | hw => simp only [h.drk hv hp]
  roundKey hv r _ := by
    rw [State.roundKey, State.roundKey, ← h.params]
    cases hp : s.params.path with
    | sw => simp only [h.w hv hp]
    | hw => simp only [h.rk hv hp]

/-- RDRK dec reads DRK with a key only, and on the hardware path only (R83). -/
theorem rdrk_dec (h : s.SameToHost t) (r : Nat) : AnswersAlike s t (execRdrk r .dec s) (execRdrk r .dec t) := by
  refine .rdrk (congrArg Params.keySize h.params) h.keyValid fun hv hr => ?_
  have hv' : t.keyValid = true := h.keyValid ▸ hv
  cases hp : s.params.path with
  | sw =>
    rw [execRdrk_dec_sw r hv hp, execRdrk_dec_sw r hv' (h.params ▸ hp)]
    exact .reject .errArg
  | hw =>
    rw [execRdrk_dec hv hp hr, execRdrk_dec hv' (h.params ▸ hp) (h.params ▸ hr)]
    exact .respond (by rw [h.drk hv hp])

end State.SameToHost

/-- Outcomes that a host cannot tell apart: both are next states, and those look the same. -/
def SameAnswers (o p : Host.Outcome State Fault Refusal) : Prop :=
  ∃ s' t' : State, o = .next s' ∧ p = .next t' ∧ s'.SameToHost t'

theorem AnswersAlike.sameAnswers {o p : Host.Outcome State Fault Refusal} (h : s.SameToHost t) (ha : AnswersAlike s t o p) :
    SameAnswers o p := by
  cases ha with
  | respond hv => exact ⟨_, _, rfl, rfl, hv ▸ h.respond _⟩
  | reject c => exact ⟨_, _, rfl, rfl, h.reject c⟩

theorem SameAnswers.retire {o p : Host.Outcome State Fault Refusal} (h : SameAnswers o p) (rest : List Input) :
    SameAnswers (retire rest o) (retire rest p) := by
  obtain ⟨s', t', rfl, rfl, h'⟩ := h
  exact ⟨_, _, rfl, rfl, h'.setInbox rest⟩

/-- SETKEY replaces all that the path has of a schedule and looks at none of it (R80, R264), so nothing is asked of the
schedules, the responses and KEY_VALID before it. -/
theorem execSetkey_sameToHost (hparams : s.params = t.params) (hinbox : s.inbox = t.inbox) :
    SameAnswers (execSetkey s) (execSetkey t) := by
  have hdin : s.din = t.din := by simp only [State.din, hinbox]
  obtain ⟨hp, hs⟩ | ⟨hp, hs⟩ := execSetkey_cases s <;> obtain ⟨hp', ht⟩ | ⟨hp', ht⟩ := execSetkey_cases t
  · refine ⟨_, _, hs, ht, hparams, rfl, rfl, rfl, hinbox, fun _ _ => ?_, fun _ hhw => ?_, fun _ hhw => ?_⟩
    · simp only [hparams, hdin]
    · exact absurd (hp.symm.trans hhw) (by decide)
    · exact absurd (hp.symm.trans hhw) (by decide)
  · exact absurd (hp.symm.trans ((congrArg Params.path hparams).trans hp')) (by decide)
  · exact absurd (hp.symm.trans ((congrArg Params.path hparams).trans hp')) (by decide)
  · refine ⟨_, _, hs, ht, hparams, rfl, rfl, rfl, hinbox, fun _ hsw => ?_, fun _ _ => ?_, fun _ _ => ?_⟩
    · exact absurd (hp.symm.trans hsw) (by decide)
    · simp only [hparams, hdin]
    · simp only [hparams, hdin]

theorem State.SameToHost.exec (h : s.SameToHost t) (i : Instr) : SameAnswers (exec i s) (exec i t) := by
  by_cases hi : i = .setkey
  · subst hi
    exact execSetkey_sameToHost h.params h.inbox
  by_cases hdec : ∃ r, i = .rdrk r .dec
  · obtain ⟨r, rfl⟩ := hdec
    exact (h.rdrk_dec r).sameAnswers h
  · exact (h.sameFunctions.exec hi (not_exists.mp hdec)).sameAnswers h

/-- The same input does the same to two states a host cannot tell apart. -/
theorem State.SameToHost.step (h : s.SameToHost t) : SameAnswers (step s) (step t) := by
  unfold Machine.step
  rw [← h.inbox]
  split
  · exact ⟨s, t, rfl, rfl, h⟩
  · next rest _ => exact ⟨_, _, rfl, rfl, h.hardReset.setInbox rest⟩
  · next rest _ => exact ⟨_, _, rfl, rfl, h.hardReset.setInbox rest⟩
  · next rest _ =>
      split
      · next i _ => exact (h.exec i).retire rest
      · exact ⟨_, _, rfl, rfl, (h.reject .errIllegal).setInbox rest⟩

end

/-- A relation that every step keeps between two states is kept by runs of every length. -/
theorem run_rel {R : State → State → Prop}
    (hstep : ∀ s t, R s t → ∃ s' t', step s = .next s' ∧ step t = .next t' ∧ R s' t') (n : Nat) :
    ∀ s t, R s t → ∃ s' t', core.run n s = .next s' ∧ core.run n t = .next t' ∧ R s' t' := by
  induction n with
  | zero => exact fun s t h => ⟨s, t, run_zero s, run_zero t, h⟩
  | succ n ih =>
    intro s t h
    obtain ⟨s₁, t₁, hs, ht, h₁⟩ := hstep s t h
    rw [run_succ_of_next n hs, run_succ_of_next n ht]
    exact ih s₁ t₁ h₁

/-- Settles O22: `State.SameToHost.step`, kept by runs of every length (`run_rel`). -/
theorem staleScheduleIsNeverSeen : Obligations.StaleScheduleIsNeverSeen := by
  unfold Obligations.StaleScheduleIsNeverSeen
  exact fun n => run_rel (fun s t => State.SameToHost.step) n

/-- Settles O23: `execSetkey_sameToHost` at the two states that the transaction presents its request to; `issue_setkey` gives
KEY_VALID = 1. -/
theorem rekeyingLeavesNoTraceOfTheOldKey : Obligations.RekeyingLeavesNoTraceOfTheOldKey := by
  unfold Obligations.RekeyingLeavesNoTraceOfTheOldKey
  intro s s' din hparams hinbox
  have hd : decode 0x00000001 = .ok .setkey := by decide
  have hsame := (execSetkey_sameToHost (s := s.present 0x00000001 din) (t := s'.present 0x00000001 din) hparams
    (congrArg (Input.request 0x00000001 din :: ·) hinbox)).retire s.inbox
  obtain ⟨t, t', ht, ht', h⟩ := hsame
  rw [hinbox] at ht'
  obtain ⟨u, hu, -, hv, -⟩ := issue_setkey s din
  have hissue : issue s 0x00000001 din = .next t := (issue_ok s din hd).trans ht
  cases hu.symm.trans hissue
  exact ⟨t, t', hissue, (issue_ok s' din hd).trans ht', h, hv⟩

/-! ### Reset -/

/-- Settles O10: both reset inputs are the one step that puts `State.hardReset` in the place of the state. -/
theorem resetAbandonsTheCommand : Obligations.ResetAbandonsTheCommand := by
  unfold Obligations.ResetAbandonsTheCommand
  refine fun s rest => ⟨fun cmd din => rfl, { s.hardReset with inbox := rest }, rfl, ?_⟩
  exact ⟨s.hardReset_keyValid, s.hardReset_status, s.hardReset_dout, s.hardReset_params, rfl, s.hardReset_w_length,
    s.hardReset_rk_length, s.hardReset_drk_length⟩

/-- Settles O12: the fields of `State.fresh`, of which `State.reset` is one case. -/
theorem resetLeavesTheValuesOfR260 : Obligations.ResetLeavesTheValuesOfR260 := by
  unfold Obligations.ResetLeavesTheValuesOfR260
  exact ⟨fun p => ⟨State.fresh_params p, State.fresh_keyValid p, rfl, rfl⟩, rfl⟩

end Sys2Proof.Machine
end

section
/-! PROOFS. GF(2⁸) and the S-boxes (R210-R216): gf_mul distributes over XOR and passes through every map that respects XOR and
doubling (`gfMul_map`), which makes it a commutative multiplication, so a byte has at most one inverse; the S-box is the affine
transform of it. -/

namespace Sys2Proof.Machine

/-! ### The laws of gf_mul -/

theorem gfMul_zero_left (x : Byte) : gfMul 0 x = 0 :=
  gfMul_map (f := fun _ => 0) rfl (fun _ _ => rfl) (fun _ => rfl) 0 x

theorem xtime_iterate_xor (n : Nat) (x y : Byte) : xtime^[n] (x ^^^ y) = xtime^[n] x ^^^ xtime^[n] y := by
  induction n with
  | zero => rfl
  | succ n ih => simp only [Function.iterate_succ_apply', ih, xtime_xor]

/-- Each summand a·2^k respects XOR in a, so the sum over the bits of b does. -/
theorem sumOfDoubles_xor (x y b : Byte) (n : Nat) :
    sumOfDoubles (x ^^^ y) b n = sumOfDoubles x b n ^^^ sumOfDoubles y b n := by
  induction n with
  | zero => simp [sumOfDoubles]
  | succ n ih =>
    rw [sumOfDoubles_succ, sumOfDoubles_succ, sumOfDoubles_succ, ih, xtime_iterate_xor]
    split
    · ac_rfl
    · rfl

theorem gfMul_xor_left (x y z : Byte) : gfMul (x ^^^ y) z = gfMul x z ^^^ gfMul y z := by
  simp only [gfMul_eq_sumOfDoubles, sumOfDoubles_xor]

/-- Multiplication by z is one of the maps of `gfMul_map`. -/
theorem gfMul_right_comm (x y z : Byte) : gfMul (gfMul x y) z = gfMul (gfMul x z) y :=
  gfMul_map (f := (gfMul · y)) (gfMul_zero_left y) (gfMul_xor_left · · y)
    (fun a => gfMul_map (f := xtime) (by decide) xtime_xor (fun _ => rfl) a y) x z

theorem gfMul_comm (x y : Byte) : gfMul x y = gfMul y x := by
  simpa only [gfMul_one] using gfMul_right_comm 1 x y

theorem gfMul_xor_right (x y z : Byte) : gfMul x (y ^^^ z) = gfMul x y ^^^ gfMul x z := by
  rw [gfMul_comm, gfMul_xor_left, gfMul_comm y, gfMul_comm z]

theorem gfMul_assoc (x y z : Byte) : gfMul (gfMul x y) z = gfMul x (gfMul y z) := by
  rw [gfMul_comm x y, gfMul_right_comm, gfMul_comm]

/-! ### The inverse -/

/-- The affine transform of R216 undone. -/
def unaffine (s : Byte) : Byte := s.rotateLeft 1 ^^^ s.rotateLeft 3 ^^^ s.rotateLeft 6 ^^^ 0x05

/-- The affine transform of R216, bit by bit, gives the byte back. -/
theorem affine_unaffine : ∀ s : Byte, ∀ i < 8,
    s.getLsbD i =
      ((unaffine s).getLsbD i ^^ (unaffine s).getLsbD ((i + 4) % 8) ^^ (unaffine s).getLsbD ((i + 5) % 8) ^^
        (unaffine s).getLsbD ((i + 6) % 8) ^^ (unaffine s).getLsbD ((i + 7) % 8) ^^ (0x63 : Byte).getLsbD i) := by
  decide +kernel

/-- The inverse in GF(2⁸), and 0 for 0, as the S-box encodes it (R216). -/
def gfInverse (x : Byte) : Byte := unaffine (sbox x)

/-- What the S-box encodes is the inverse: checked over the 255 nonzero bytes. -/
theorem gfMul_gfInverse : ∀ x : Byte, x ≠ 0 → gfMul x (gfInverse x) = 1 := by decide +kernel

theorem gfInverse_zero : gfInverse 0 = 0 := by decide +kernel

/-- A byte has one inverse only. -/
theorem eq_gfInverse {x b : Byte} (h : gfMul x b = 1) : b = gfInverse x := by
  have hx : x ≠ 0 := by
    rintro rfl
    exact absurd ((gfMul_zero_left b).symm.trans h) (by decide)
  calc
    b = gfMul (gfMul x (gfInverse x)) b := by rw [gfMul_gfInverse x hx, gfMul_one]
    _ = gfMul (gfMul x b) (gfInverse x) := gfMul_right_comm x _ b
    _ = gfInverse x := by rw [h, gfMul_one]

/-- Settles O54: one lemma for each law, and `gfInverse` for the inverse. -/
theorem gfMulObeysTheFieldLaws : Obligations.GfMulObeysTheFieldLaws := by
  unfold Obligations.GfMulObeysTheFieldLaws
  exact fun x y z => ⟨gfMul_one x, gfMul_comm x y, gfMul_two x, gfMul_zero_left x, gfMul_xor_right x y z,
    fun hx => ⟨gfInverse x, gfMul_gfInverse x hx⟩⟩

/-! ### The S-boxes -/

/-- Settles O55: an inverse of x is the one the S-box encodes (`eq_gfInverse`), whose affine transform is the S-box
(`affine_unaffine`). -/
theorem sboxIsTheAffineTransformOfTheInverse : Obligations.SboxIsTheAffineTransformOfTheInverse := by
  unfold Obligations.SboxIsTheAffineTransformOfTheInverse
  intro x b hb
  obtain rfl : b = gfInverse x := by
    obtain h | ⟨rfl, rfl⟩ := hb
    · exact eq_gfInverse h
    · exact gfInverse_zero.symm
  exact affine_unaffine (sbox x)

theorem invSbox_sbox : ∀ x : Byte, invSbox (sbox x) = x := by decide +kernel

theorem sbox_invSbox : ∀ x : Byte, sbox (invSbox x) = x := by decide +kernel

/-- Settles O56: the two tables, entry by entry. -/
theorem sboxesUndoEachOther : Obligations.SboxesUndoEachOther := by
  unfold Obligations.SboxesUndoEachOther
  exact fun x => ⟨invSbox_sbox x, sbox_invSbox x⟩

end Sys2Proof.Machine
end

section
/-! PROOFS. The round transforms undo each other (R101, R103, R105), commute (R107), and so the inverse cipher undoes the cipher
(R121). The columns: R104 and R105 multiply each column by a circulant matrix over GF(2⁸), and the product of the two matrices is
the identity. -/

namespace Sys2Proof.Machine

/-! ### Bytes and rows -/

theorem invSubBytes_subBytes (x : Lane) : invSubBytes (subBytes x) = x :=
  lane_ext fun i hi => by rw [byteAt_invSubBytes _ hi, byteAt_subBytes _ hi, invSbox_sbox]

theorem subBytes_invSubBytes (x : Lane) : subBytes (invSubBytes x) = x :=
  lane_ext fun i hi => by rw [byteAt_subBytes _ hi, byteAt_invSubBytes _ hi, sbox_invSbox]

/-- SR and ISR are inverse permutations (R102, R103). -/
theorem srTable_isrTable : ∀ i < 16, srTable.getD (isrTable.getD i 0) 0 = i ∧ isrTable.getD (srTable.getD i 0) 0 = i := by decide

theorem invShiftRows_shiftRows (x : Lane) : invShiftRows (shiftRows x) = x :=
  lane_ext fun i hi => by
    rw [byteAt_invShiftRows _ hi, byteAt_shiftRows _ (isrTable_lt i hi), (srTable_isrTable i hi).1]

theorem shiftRows_invShiftRows (x : Lane) : shiftRows (invShiftRows x) = x :=
  lane_ext fun i hi => by
    rw [byteAt_shiftRows _ hi, byteAt_invShiftRows _ (srTable_lt i hi), (srTable_isrTable i hi).2]

/-- SubBytes treats every byte alike, so it does not matter where ShiftRows has put it (R107). -/
theorem shiftRows_subBytes (x : Lane) : shiftRows (subBytes x) = subBytes (shiftRows x) :=
  lane_ext fun i hi => by
    rw [byteAt_shiftRows _ hi, byteAt_subBytes _ (srTable_lt i hi), byteAt_subBytes _ hi, byteAt_shiftRows _ hi]

theorem invShiftRows_invSubBytes (x : Lane) : invShiftRows (invSubBytes x) = invSubBytes (invShiftRows x) :=
  lane_ext fun i hi => by
    rw [byteAt_invShiftRows _ hi, byteAt_invSubBytes _ (isrTable_lt i hi), byteAt_invSubBytes _ hi, byteAt_invShiftRows _ hi]

/-! ### Columns -/

/-- Byte r of the circulant matrix over GF(2⁸) with first row (k0, k1, k2, k3) times the column (a, b, c, d). -/
def circulant (k0 k1 k2 k3 a b c d : Byte) : Nat → Byte
  | 0 => gfMul k0 a ^^^ gfMul k1 b ^^^ gfMul k2 c ^^^ gfMul k3 d
  | 1 => gfMul k3 a ^^^ gfMul k0 b ^^^ gfMul k1 c ^^^ gfMul k2 d
  | 2 => gfMul k2 a ^^^ gfMul k3 b ^^^ gfMul k0 c ^^^ gfMul k1 d
  | _ => gfMul k1 a ^^^ gfMul k2 b ^^^ gfMul k3 c ^^^ gfMul k0 d

/-- The matrix of R104. -/
theorem mixByte_eq_circulant : mixByte = circulant 0x02 0x03 0x01 0x01 := by
  funext a b c d r
  match r with
  | 0 | 1 | 2 | _ + 3 => simp only [mixByte, circulant, gfMul_one]

/-- The matrix of R105. -/
theorem invMixByte_eq_circulant : invMixByte = circulant 0x0e 0x0b 0x0d 0x09 := by
  funext a b c d r
  match r with
  | 0 | 1 | 2 | _ + 3 => rfl

/-- A matrix respects the XOR of columns. -/
theorem circulant_xor (k0 k1 k2 k3 a b c d a' b' c' d' : Byte) (r : Nat) :
    circulant k0 k1 k2 k3 (a ^^^ a') (b ^^^ b') (c ^^^ c') (d ^^^ d') r =
      circulant k0 k1 k2 k3 a b c d r ^^^ circulant k0 k1 k2 k3 a' b' c' d' r := by
  match r with
  | 0 | 1 | 2 | _ + 3 =>
    simp only [circulant, gfMul_xor_right]
    ac_rfl

/-- A matrix times a matrix times a column is the product of the matrices times the column. -/
theorem circulant_circulant (k0 k1 k2 k3 m0 m1 m2 m3 a b c d : Byte) (r : Nat) :
    circulant k0 k1 k2 k3 (circulant m0 m1 m2 m3 a b c d 0) (circulant m0 m1 m2 m3 a b c d 1)
        (circulant m0 m1 m2 m3 a b c d 2) (circulant m0 m1 m2 m3 a b c d 3) r =
      circulant (gfMul k0 m0 ^^^ gfMul k1 m3 ^^^ gfMul k2 m2 ^^^ gfMul k3 m1)
        (gfMul k0 m1 ^^^ gfMul k1 m0 ^^^ gfMul k2 m3 ^^^ gfMul k3 m2)
        (gfMul k0 m2 ^^^ gfMul k1 m1 ^^^ gfMul k2 m0 ^^^ gfMul k3 m3)
        (gfMul k0 m3 ^^^ gfMul k1 m2 ^^^ gfMul k2 m1 ^^^ gfMul k3 m0) a b c d r := by
  match r with
  | 0 | 1 | 2 | _ + 3 =>
    simp only [circulant, gfMul_xor_right, gfMul_xor_left, gfMul_assoc]
    ac_rfl

/-- Two lanes with the same byte in each row of each column are the same lane (R17). -/
theorem lane_ext_columns {x y : Lane} (h : ∀ c < 4, ∀ r < 4, byteAt x (4 * c + r) = byteAt y (4 * c + r)) : x = y := by
  refine lane_ext fun i hi => ?_
  have hbyte := h (i / 4) (by omega) (i % 4) (Nat.mod_lt i (by decide))
  rwa [Nat.div_add_mod] at hbyte

/-- A transform that respects the XOR of columns respects the XOR of states. -/
theorem onColumns_circulant_xor (k0 k1 k2 k3 : Byte) (x y : Lane) :
    onColumns (circulant k0 k1 k2 k3) (x ^^^ y) =
      onColumns (circulant k0 k1 k2 k3) x ^^^ onColumns (circulant k0 k1 k2 k3) y :=
  lane_ext_columns fun c hc r hr => by
    simp only [byteAt_xor, byteAt_onColumns _ _ hc hr, circulant_xor]

/-- A matrix after a matrix whose product with it is the identity gives the state back. -/
theorem onColumns_circulant_cancel {k0 k1 k2 k3 m0 m1 m2 m3 : Byte}
    (h0 : gfMul k0 m0 ^^^ gfMul k1 m3 ^^^ gfMul k2 m2 ^^^ gfMul k3 m1 = 1)
    (h1 : gfMul k0 m1 ^^^ gfMul k1 m0 ^^^ gfMul k2 m3 ^^^ gfMul k3 m2 = 0)
    (h2 : gfMul k0 m2 ^^^ gfMul k1 m1 ^^^ gfMul k2 m0 ^^^ gfMul k3 m3 = 0)
    (h3 : gfMul k0 m3 ^^^ gfMul k1 m2 ^^^ gfMul k2 m1 ^^^ gfMul k3 m0 = 0) (x : Lane) :
    onColumns (circulant k0 k1 k2 k3) (onColumns (circulant m0 m1 m2 m3) x) = x := by
  refine lane_ext_columns fun c hc r hr => ?_
  have hrow (j : Nat) (hj : j < 4) := byteAt_onColumns (circulant m0 m1 m2 m3) x hc hj
  have hfirst : byteAt (onColumns (circulant m0 m1 m2 m3) x) (4 * c) = _ := hrow 0 (by decide)
  rw [byteAt_onColumns _ _ hc hr, hfirst, hrow 1 (by decide), hrow 2 (by decide), hrow 3 (by decide), circulant_circulant, h0, h1,
    h2, h3]
  interval_cases r <;>
    · simp only [circulant, gfMul_one, gfMul_zero_left]
      simp

theorem mixColumns_xor (x y : Lane) : mixColumns (x ^^^ y) = mixColumns x ^^^ mixColumns y := by
  simp only [mixColumns, mixByte_eq_circulant, onColumns_circulant_xor]

theorem invMixColumns_xor (x y : Lane) : invMixColumns (x ^^^ y) = invMixColumns x ^^^ invMixColumns y := by
  simp only [invMixColumns, invMixByte_eq_circulant, onColumns_circulant_xor]

theorem invMixColumns_mixColumns (x : Lane) : invMixColumns (mixColumns x) = x := by
  rw [invMixColumns, mixColumns, invMixByte_eq_circulant, mixByte_eq_circulant]
  exact onColumns_circulant_cancel (by decide) (by decide) (by decide) (by decide) x

theorem mixColumns_invMixColumns (x : Lane) : mixColumns (invMixColumns x) = x := by
  rw [invMixColumns, mixColumns, invMixByte_eq_circulant, mixByte_eq_circulant]
  exact onColumns_circulant_cancel (by decide) (by decide) (by decide) (by decide) x

/-- Settles O40: one lemma for each order of each pair. -/
theorem inverseTransformsUndoTheTransforms : Obligations.InverseTransformsUndoTheTransforms := by
  unfold Obligations.InverseTransformsUndoTheTransforms
  exact fun x => ⟨invSubBytes_subBytes x, subBytes_invSubBytes x, invShiftRows_shiftRows x, shiftRows_invShiftRows x,
    invMixColumns_mixColumns x, mixColumns_invMixColumns x⟩

/-- Settles O41: `shiftRows_subBytes` and its inverse, and matrices respect XOR (`circulant_xor`). -/
theorem transformsCommuteAndMixingIsLinear : Obligations.TransformsCommuteAndMixingIsLinear := by
  unfold Obligations.TransformsCommuteAndMixingIsLinear
  exact fun x y => ⟨shiftRows_subBytes x, invShiftRows_invSubBytes x, mixColumns_xor x y, invMixColumns_xor x y⟩

/-! ### The software ciphers -/

/-- AddRoundKey is the XOR with the round's lane (R106, R192). -/
theorem addRoundKeyW_eq_xor (x : Lane) (w : List Word) (r : Nat) : addRoundKeyW x w (4 * r) = x ^^^ laneOf w r :=
  lane_ext fun i hi => by rw [addRoundKeyW, byteAt_laneOfBytes _ hi, byteAt_xor, byteAt_laneOf _ _ hi]

theorem addRoundKeyW_addRoundKeyW (x : Lane) (w : List Word) (n : Nat) : addRoundKeyW (addRoundKeyW x w n) w n = x :=
  lane_ext fun i hi => by
    rw [addRoundKeyW, byteAt_laneOfBytes _ hi, addRoundKeyW, byteAt_laneOfBytes _ hi, BitVec.xor_assoc, BitVec.xor_self,
      BitVec.xor_zero]

/-- The rounds from the highest down undo the rounds from the lowest up, when each undoes its own (R19). -/
theorem forDown_forUp {α : Type} {f g : Nat → α → α} (h : ∀ i x, g i (f i x) = x) (lo hi : Nat) (x : α) :
    forDown hi lo g (forUp lo hi f x) = x := by
  unfold forDown forUp
  induction List.range' lo (hi + 1 - lo) generalizing x with
  | nil => rfl
  | cons i is ih => rw [List.foldl_cons, List.foldr_cons, ih, h]

theorem forUp_forDown {α : Type} {f g : Nat → α → α} (h : ∀ i x, f i (g i x) = x) (lo hi : Nat) (x : α) :
    forUp lo hi f (forDown hi lo g x) = x := by
  unfold forDown forUp
  induction List.range' lo (hi + 1 - lo) with
  | nil => rfl
  | cons i is ih => rw [List.foldl_cons, List.foldr_cons, h, ih]

/-- A map that carries the turns of one downward loop to those of another carries its result to the other's (R19). -/
theorem forDown_hom {α β : Type} {p : α → β} {f : Nat → α → α} {g : Nat → β → β} (h : ∀ i x, p (f i x) = g i (p x))
    (hi lo : Nat) (x : α) : p (forDown hi lo f x) = forDown hi lo g (p x) :=
  (List.foldr_hom p fun i x => (h i x).symm).symm

/-- The round of SwCipher undone step by step: AddRoundKey, MixColumns, and the two last together (R120). -/
def undoSwRound (w : List Word) (r : Nat) (x : Lane) : Lane :=
  invSubBytes (invShiftRows (invMixColumns (addRoundKeyW x w (4 * r))))

theorem undoSwRound_swRound (w : List Word) (r : Nat) (x : Lane) : undoSwRound w r (swRound w r x) = x := by
  rw [undoSwRound, swRound, addRoundKeyW_addRoundKeyW, invMixColumns_mixColumns, invShiftRows_shiftRows, invSubBytes_subBytes]

theorem swRound_undoSwRound (w : List Word) (r : Nat) (x : Lane) : swRound w r (undoSwRound w r x) = x := by
  rw [undoSwRound, swRound, subBytes_invSubBytes, shiftRows_invShiftRows, mixColumns_invMixColumns, addRoundKeyW_addRoundKeyW]

/-- SwInvCipher with its rounds cut one transform later: each is then a round of SwCipher undone (R121). -/
theorem swInvCipher_eq (nr : Nat) (b : Lane) (w : List Word) :
    swInvCipher nr b w =
      addRoundKeyW (forDown (nr - 1) 1 (undoSwRound w) (invSubBytes (invShiftRows (addRoundKeyW b w (4 * nr))))) w 0 := by
  rw [swInvCipher, forDown_hom (p := fun x => invSubBytes (invShiftRows x)) (f := swInvRound w) (g := undoSwRound w)
    fun _ _ => rfl]

/-- Settles O42: the two ends of the ciphers cancel, and between them `undoSwRound_swRound` in each round. -/
theorem swInvCipherUndoesSwCipher : Obligations.SwInvCipherUndoesSwCipher := by
  unfold Obligations.SwInvCipherUndoesSwCipher
  refine fun nr b w => ⟨?_, ?_⟩
  · rw [swInvCipher_eq, swCipher, addRoundKeyW_addRoundKeyW, invShiftRows_shiftRows, invSubBytes_subBytes,
      forDown_forUp (undoSwRound_swRound w), addRoundKeyW_addRoundKeyW]
  · rw [swInvCipher_eq, swCipher, addRoundKeyW_addRoundKeyW, forUp_forDown (swRound_undoSwRound w), subBytes_invSubBytes,
      shiftRows_invShiftRows, addRoundKeyW_addRoundKeyW]

end Sys2Proof.Machine
end

section
/-! PROOFS. The lane operations of the hardware key schedule as word operations (R155-R157, R178, R179). `dwordOf` is the dword
that holds the bytes of a software word in order; through it a lane of the schedule is four words (`HoldsFrom`), and Prefix carries
them to the four that the recurrence of R133 makes of them. -/

namespace Sys2Proof.Machine

/-! ### A software word as a dword of a lane -/

/-- Two dwords with the same four bytes are the same dword. -/
theorem dword_ext {x y : Word} (h : ∀ b < 4, byteAt x b = byteAt y b) : x = y := by
  apply BitVec.eq_of_getLsbD_eq
  intro j hj
  have hbit := congrArg (fun b : Byte => b.getLsbD (j % 8)) (h (j / 8) (by omega))
  have hm : j % 8 < 8 := Nat.mod_lt _ (by decide)
  simpa only [getLsbD_byteAt, hm, decide_true, Bool.true_and, Nat.div_add_mod] using hbit

/-- The dword that holds the bytes of a big-endian word in order (R15, R16). -/
def dwordOf (v : Word) : Word := packBE (byteAt v 0) (byteAt v 1) (byteAt v 2) (byteAt v 3)

theorem byteAt_dwordOf (v : Word) {b : Nat} (h : b < 4) : byteAt (dwordOf v) b = beByte v b := by
  have hbyte := beByte_packBE (byteAt v) (j := 3 - b) (by omega)
  rwa [beByte, Nat.sub_sub_self (by omega)] at hbyte

/-- A dword with the bytes of a word is the word's dword. -/
theorem eq_dwordOf {d v : Word} (h : ∀ b < 4, byteAt d b = beByte v b) : d = dwordOf v :=
  dword_ext fun b hb => (h b hb).trans (byteAt_dwordOf v hb).symm

@[simp] theorem dwordOf_xor (x y : Word) : dwordOf (x ^^^ y) = dwordOf x ^^^ dwordOf y :=
  dword_ext fun b hb => by simp only [byteAt_xor, byteAt_dwordOf _ hb, beByte_xor]

/-- SubWordL is SubWord on the dword's word (R130, R155). -/
theorem subWordL_dwordOf (v : Word) : subWordL (dwordOf v) = dwordOf (subWord v) :=
  dword_ext fun b hb => by rw [byteAt_subWordL _ hb, byteAt_dwordOf _ hb, byteAt_dwordOf _ hb, beByte_subWord _ hb]

/-- RotWordL of the substituted dword, with the round constant, is the word transform at a multiple of Nk (R134, R155): the word's
first byte is the dword's lowest. -/
theorem rotWordL_subWordL_dwordOf (v : Word) (j : Nat) :
    rotWordL (subWordL (dwordOf v)) ^^^ (rcon j).setWidth 32 = dwordOf (subWord (rotWord v) ^^^ rconWord j) :=
  dword_ext fun b hb => by
    have hrot : (b + 1) % 4 < 4 := Nat.mod_lt _ (by decide)
    rw [byteAt_xor, byteAt_rotWordL _ hb, byteAt_subWordL _ hrot, byteAt_dwordOf _ hrot, byteAt_setWidth_byte,
      byteAt_dwordOf _ hb, beByte_xor, beByte_subWord _ hb, beByte_rotWord _ hb, beByte_rconWord]

/-- Settles O46: dwords 3 and 1 of x are `dwordOf v`, and AESKEYGENASSIST applies the two forms of `subWordL_dwordOf` and
`rotWordL_subWordL_dwordOf` to them. -/
theorem keygenAssistComputesTheWordTransform : Obligations.KeygenAssistComputesTheWordTransform := by
  unfold Obligations.KeygenAssistComputesTheWordTransform
  refine fun x v j => ⟨fun hx b hb => ?_, fun hx b hb => ?_⟩
  · rw [dword_aeskeygenassist_three, dword_aeskeygenassist_two, eq_dwordOf hx, rotWordL_subWordL_dwordOf, subWordL_dwordOf]
    exact ⟨byteAt_dwordOf _ hb, byteAt_dwordOf _ hb⟩
  · rw [dword_aeskeygenassist_one, dword_aeskeygenassist_zero, eq_dwordOf hx, rotWordL_subWordL_dwordOf, subWordL_dwordOf]
    exact ⟨byteAt_dwordOf _ hb, byteAt_dwordOf _ hb⟩

/-! ### Lane operations by dwords -/

theorem dword_sllBytes_below (x : Lane) {n j : Nat} (h : j < n) : dword (sllBytes x (4 * n)) j = 0#32 := by
  apply BitVec.eq_of_getLsbD_eq
  intro i hi
  have hlow : 32 * j + i < 8 * (4 * n) := by omega
  simp [getLsbD_dword, sllBytes, hlow]

theorem dword_sllBytes_add (x : Lane) {n j : Nat} (h : n + j < 4) : dword (sllBytes x (4 * n)) (n + j) = dword x j := by
  apply BitVec.eq_of_getLsbD_eq
  intro i hi
  have hlane : 32 * (n + j) + i < 128 := by omega
  have hge : ¬ 32 * (n + j) + i < 8 * (4 * n) := by omega
  have hpos : 32 * (n + j) + i - 8 * (4 * n) = 32 * j + i := by omega
  simp only [getLsbD_dword, sllBytes, BitVec.getLsbD_shiftLeft, hi, hlane, hge, hpos, decide_true, decide_false,
    Bool.not_false, Bool.true_and]

/-- The shift by one dword, dword by dword (R178). -/
theorem dword_sllBytes_four (x : Lane) :
    dword (sllBytes x 4) 0 = 0#32 ∧ dword (sllBytes x 4) 1 = dword x 0 ∧ dword (sllBytes x 4) 2 = dword x 1 ∧
      dword (sllBytes x 4) 3 = dword x 2 :=
  ⟨dword_sllBytes_below x (n := 1) (by decide), dword_sllBytes_add x (n := 1) (j := 0) (by decide),
    dword_sllBytes_add x (n := 1) (j := 1) (by decide), dword_sllBytes_add x (n := 1) (j := 2) (by decide)⟩

/-- The shift by two dwords, dword by dword (R178). -/
theorem dword_sllBytes_eight (x : Lane) :
    dword (sllBytes x 8) 0 = 0#32 ∧ dword (sllBytes x 8) 1 = 0#32 ∧ dword (sllBytes x 8) 2 = dword x 0 ∧
      dword (sllBytes x 8) 3 = dword x 1 :=
  ⟨dword_sllBytes_below x (n := 2) (by decide), dword_sllBytes_below x (n := 2) (by decide),
    dword_sllBytes_add x (n := 2) (j := 0) (by decide), dword_sllBytes_add x (n := 2) (j := 1) (by decide)⟩

/-- Settles O48: dword m after the first shift holds the XOR of dwords m−1 and m, and the second shift adds the pair below. -/
theorem prefixXorsTheDwordsBelow : Obligations.PrefixXorsTheDwordsBelow := by
  unfold Obligations.PrefixXorsTheDwordsBelow
  intro x
  obtain ⟨h0, h1, h2, h3⟩ := dword_sllBytes_four x
  obtain ⟨k0, k1, k2, k3⟩ := dword_sllBytes_eight (x ^^^ sllBytes x 4)
  simp only [prefixXor, dword_xor, h0, h1, h2, h3, k0, k1, k2, k3, BitVec.xor_zero]
  refine ⟨trivial, ?_, ?_, ?_⟩ <;> ac_rfl

theorem dword_bcast32 (x : Lane) (j : Nat) {c : Nat} (h : c < 4) : dword (bcast32 x j) c = dword x j := by
  rw [bcast32]
  interval_cases c
  · exact dword_laneOfDwords_zero _ _ _ _
  · exact dword_laneOfDwords_one _ _ _ _
  · exact dword_laneOfDwords_two _ _ _ _
  · exact dword_laneOfDwords_three _ _ _ _

section
variable {c : Nat} (h : c < 2)
include h

theorem dword_lanepair_low64 (x : Lane) (hi : Half) : dword (lanepair (low64 x) hi) c = dword x c := by
  apply BitVec.eq_of_getLsbD_eq
  intro i hi'
  have hlow : 32 * c + i < 64 := by omega
  simp only [getLsbD_dword, lanepair, low64, BitVec.getLsbD_append, BitVec.getLsbD_extractLsb', hlow, hi', decide_true,
    Bool.true_and, Nat.zero_add, if_true]

theorem dword_lanepair_high64 (x : Lane) (hi : Half) : dword (lanepair (high64 x) hi) c = dword x (2 + c) := by
  apply BitVec.eq_of_getLsbD_eq
  intro i hi'
  have hlow : 32 * c + i < 64 := by omega
  have hpos : 64 + (32 * c + i) = 32 * (2 + c) + i := by omega
  simp only [getLsbD_dword, lanepair, high64, BitVec.getLsbD_append, BitVec.getLsbD_extractLsb', hlow, hi', hpos, decide_true,
    Bool.true_and, if_true]

theorem dword_lanepair_above (lo : Half) (y : Lane) : dword (lanepair lo (low64 y)) (2 + c) = dword y c := by
  apply BitVec.eq_of_getLsbD_eq
  intro i hi'
  have hhigh : ¬ 32 * (2 + c) + i < 64 := by omega
  have hpos : 32 * (2 + c) + i - 64 = 32 * c + i := by omega
  have hlow : 32 * c + i < 64 := by omega
  simp only [getLsbD_dword, lanepair, low64, BitVec.getLsbD_append, BitVec.getLsbD_extractLsb', hhigh, hpos, hlow, hi',
    decide_true, Bool.true_and, Nat.zero_add, if_false]

end

/-! ### Lanes of a word schedule -/

/-- A lane that holds the four words of a schedule from word m on (R192). -/
def HoldsFrom (w : List Word) (m : Nat) (x : Lane) : Prop := ∀ c < 4, dword x c = dwordOf (w.getD (m + c) 0)

theorem holdsFrom_laneOf (w : List Word) (r : Nat) : HoldsFrom w (4 * r) (laneOf w r) := fun c hc =>
  eq_dwordOf fun b hb => by rw [byteAt_dword _ _ hb, byteAt_laneOf_column _ _ hc hb]

/-- The lane of round r is the one that holds its four words. -/
theorem HoldsFrom.eq_laneOf {w : List Word} {r : Nat} {x : Lane} (h : HoldsFrom w (4 * r) x) : x = laneOf w r :=
  lane_ext_dword fun c hc => (h c hc).trans (holdsFrom_laneOf w r c hc).symm

/-- Prefix turns the four words from m on into the four from m + Nk on, where the recurrence of R133 transforms the first of them
only: the transform of the word before it reaches all four. -/
theorem HoldsFrom.prefixXor {nk n m m' j : Nat} {w : List Word} {x a : Lane} (hx : HoldsFrom w m x) (hw : ExpandedBelow nk n w)
    (hm : m' = m + nk) (hend : m' + 4 ≤ n) (hplain : ∀ c < 3, ∀ v, wordT nk v (m' + (c + 1)) = v)
    (ha : dword a j = dwordOf (wordT nk (w.getD (m' - 1) 0) m')) : HoldsFrom w m' (prefixXor x ^^^ bcast32 a j) := by
  subst hm
  have hfirst : w.getD (m + nk + 0) 0 = w.getD (m + 0) 0 ^^^ wordT nk (w.getD (m + nk - 1) 0) (m + nk) := by
    have hword := hw.word (m + nk) (by omega) (by omega)
    rwa [Nat.add_sub_cancel] at hword
  have hnext (c : Nat) (hc : c < 3) : w.getD (m + nk + (c + 1)) 0 = w.getD (m + (c + 1)) 0 ^^^ w.getD (m + nk + c) 0 := by
    have hword := hw.word (m + nk + (c + 1)) (by omega) (by omega)
    rwa [hplain c hc, show m + nk + (c + 1) - nk = m + (c + 1) by omega] at hword
  obtain ⟨p0, p1, p2, p3⟩ := prefixXorsTheDwordsBelow x
  intro c hc
  rw [dword_xor, dword_bcast32 _ _ hc, ha]
  interval_cases c
  · rw [p0, hx 0 (by decide), hfirst, dwordOf_xor]
  · rw [p1, hx 0 (by decide), hx 1 (by decide), hnext 0 (by decide), hfirst, dwordOf_xor, dwordOf_xor]
    ac_rfl
  · rw [p2, hx 0 (by decide), hx 1 (by decide), hx 2 (by decide), hnext 1 (by decide), hnext 0 (by decide), hfirst, dwordOf_xor,
      dwordOf_xor, dwordOf_xor]
    ac_rfl
  · rw [p3, hx 0 (by decide), hx 1 (by decide), hx 2 (by decide), hx 3 (by decide), hnext 2 (by decide), hnext 1 (by decide),
      hnext 0 (by decide), hfirst, dwordOf_xor, dwordOf_xor, dwordOf_xor, dwordOf_xor]
    ac_rfl

/-- At a multiple of Nk, T is the form of AESKEYGENASSIST that rotates, with the round constant as its immediate (R134, R156). -/
theorem rotWordL_subWordL_dwordOf_wordT {nk : Nat} (hnk : 0 < nk) (v : Word) (j : Nat) :
    rotWordL (subWordL (dwordOf v)) ^^^ (rcon j).setWidth 32 = dwordOf (wordT nk v (nk * j)) := by
  rw [rotWordL_subWordL_dwordOf, wordT, if_pos (Nat.mul_mod_right nk j), Nat.mul_div_cancel_left j hnk]

/-- Halfway between two multiples of 8, T for 256-bit keys is the form that only substitutes (R134, R187). -/
theorem subWordL_dwordOf_wordT {m : Nat} (hm : m % 8 = 4) (v : Word) : subWordL (dwordOf v) = dwordOf (wordT 8 v m) := by
  have hne : m % 8 ≠ 0 := by omega
  rw [subWordL_dwordOf, wordT, if_neg hne, if_pos ⟨by decide, hm⟩]

/-- T leaves every other word alone (R134). -/
theorem wordT_plain {nk m : Nat} (h0 : m % nk ≠ 0) (h4 : ¬ (6 < nk ∧ m % nk = 4)) (v : Word) : wordT nk v m = v := by
  rw [wordT, if_neg h0, if_neg h4]

end Sys2Proof.Machine
end

section
/-! PROOFS. The three lane expansions are KeyExpansion laid into lanes (R181-R188, R191), and over such lanes the hardware ciphers
are the software ones (R172). Expand128 and Expand256 append a lane in each turn; Expand192 produces six words in each iteration,
so its partial schedule is followed word by word. -/

namespace Sys2Proof.Machine

/-! ### Expand128 and Expand256 -/

theorem getD_map_laneOf (w : List Word) {n r : Nat} (h : r < n) : ((List.range n).map (laneOf w)).getD r 0 = laneOf w r := by
  simp [h]

/-- Appending the lane of the next four words. -/
theorem map_laneOf_append {w : List Word} {n : Nat} {x : Lane} (h : HoldsFrom w (4 * n) x) :
    (List.range n).map (laneOf w) ++ [x] = (List.range (n + 1)).map (laneOf w) := by
  rw [h.eq_laneOf, List.range_succ, List.map_append, List.map_singleton]

/-- The lanes that the key itself fills (R136). -/
theorem laneOf_keyExpansion {nk nr r : Nat} (key : Data) (h : 16 * r + 16 ≤ 4 * nk) :
    laneOf (keyExpansion nk nr key) r = key.extractLsb' (8 * (16 * r)) 128 :=
  lane_ext fun b hb => by rw [byteAt_laneOf_keyExpansion key hb (by omega), byteAt_extractLsb' key _ (by omega)]

theorem expand128Turn_map {w : List Word} (hw : ExpandedBelow 4 44 w) {j : Nat} (hj : j ≤ 9) :
    expand128Turn j ((List.range (j + 1)).map (laneOf w)) = (List.range (j + 2)).map (laneOf w) := by
  have hlast : dword (laneOf w j) 3 = dwordOf (w.getD (4 * (j + 1) - 1) 0) := holdsFrom_laneOf w j 3 (by decide)
  have hassist : dword (aeskeygenassist (laneOf w j) (rcon (j + 1))) 3 =
      dwordOf (wordT 4 (w.getD (4 * (j + 1) - 1) 0) (4 * (j + 1))) := by
    rw [dword_aeskeygenassist_three, hlast, rotWordL_subWordL_dwordOf_wordT (nk := 4) (by decide)]
  rw [expand128Turn, getD_map_laneOf w (Nat.lt_succ_self j)]
  exact map_laneOf_append ((holdsFrom_laneOf w j).prefixXor hw (by omega) (by omega)
    (fun c hc => wordT_plain (by omega) (by omega)) hassist)

theorem expand128_eq (key : Data) : expand128 key = fallbackExpand 4 10 key :=
  forUp_rel (R := fun j rk _ => rk = (List.range (j + 1)).map (laneOf (keyExpansion 4 10 key))) (g := fun _ => id) (y := ())
    (lo := 0) (hi := 9) (by decide) (by rw [List.range_one, List.map_singleton, laneOf_keyExpansion key (by decide)])
    fun j rk _ _ hj h => h ▸ expand128Turn_map (keyExpansion_expanded (nk := 4) (nr := 10) (by decide) (by decide) key) hj

theorem expand256Turn_map {w : List Word} (hw : ExpandedBelow 8 60 w) {k : Nat} (imm : Byte) (h2 : 2 ≤ k) (hk : k ≤ 14) :
    expand256Turn imm k ((List.range k).map (laneOf w)) = (List.range (k + 1)).map (laneOf w) := by
  have hlast : dword (laneOf w (k - 1)) 3 = dwordOf (w.getD (4 * k - 1) 0) := by
    rw [holdsFrom_laneOf w (k - 1) 3 (by decide), show 4 * (k - 1) + 3 = 4 * k - 1 by omega]
  have hstep {a : Lane} {j : Nat} (ha : dword a j = dwordOf (wordT 8 (w.getD (4 * k - 1) 0) (4 * k))) :=
    map_laneOf_append ((holdsFrom_laneOf w (k - 2)).prefixXor hw (by omega) (by omega)
      (fun c hc => wordT_plain (by omega) (by omega)) ha)
  rw [expand256Turn, getD_map_laneOf w (show k - 1 < k by omega), getD_map_laneOf w (show k - 2 < k by omega)]
  by_cases heven : k % 2 = 0
  · have hround : 4 * k = 8 * (k / 2) := by omega
    rw [if_pos heven]
    refine hstep ?_
    rw [dword_aeskeygenassist_three, hlast, hround, rotWordL_subWordL_dwordOf_wordT (nk := 8) (by decide)]
  · rw [if_neg heven]
    refine hstep ?_
    rw [dword_aeskeygenassist_two, hlast, subWordL_dwordOf_wordT (m := 4 * k) (by omega)]

theorem expand256With_eq (imm : Byte) (key : Data) : expand256With imm key = fallbackExpand 8 14 key :=
  forUp_rel (R := fun k rk _ => rk = (List.range k).map (laneOf (keyExpansion 8 14 key))) (g := fun _ => id) (y := ())
    (lo := 2) (hi := 14) (by decide)
    (by
      rw [List.range_succ, List.range_one, List.map_append, List.map_singleton, List.map_singleton,
        laneOf_keyExpansion key (by decide), laneOf_keyExpansion key (by decide)]
      rfl)
    fun k rk _ h2 hk h => h ▸ expand256Turn_map (keyExpansion_expanded (nk := 8) (nr := 14) (by decide) (by decide) key) imm h2 hk

/-- Settles O51: whatever the immediate, the expansion is the software one (`expand256With_eq`), since a trailing step takes
dword 2 of AESKEYGENASSIST. -/
theorem expand256IgnoresTheTrailingImmediate : Obligations.Expand256IgnoresTheTrailingImmediate := by
  unfold Obligations.Expand256IgnoresTheTrailingImmediate
  exact fun imm key => (expand256With_eq imm key).trans (expand256With_eq 0x00 key).symm

/-! ### Expand192 -/

/-- A rolling state with the words from 6·n on, so far as the schedule of 52 words goes: four in s0 and two in the low half of s1
(R183). -/
structure Rolling.HoldsBlock (w : List Word) (n : Nat) (q : Rolling) : Prop where
  s0 : HoldsFrom w (6 * n) q.s0
  s1 : ∀ c < 2, 6 * n + 4 + c < 52 → dword q.s1 c = dwordOf (w.getD (6 * n + 4 + c) 0)

/-- The rolling state moves on by six words: Prefix for the first four, and one shift and the last of the four for the other two,
which T leaves alone (R133, R183). -/
theorem Rolling.HoldsBlock.turn {w : List Word} (hw : ExpandedBelow 6 52 w) {n : Nat} (hn : n + 1 ≤ 8) {q : Rolling}
    (h : q.HoldsBlock w n) : (rollingTurn (n + 1) q).HoldsBlock w (n + 1) := by
  have hlast : dword q.s1 1 = dwordOf (w.getD (6 * (n + 1) - 1) 0) := h.s1 1 (by decide) (by omega)
  have hassist : dword (aeskeygenassist q.s1 (rcon (n + 1))) 1 =
      dwordOf (wordT 6 (w.getD (6 * (n + 1) - 1) 0) (6 * (n + 1))) := by
    rw [dword_aeskeygenassist_one, hlast, rotWordL_subWordL_dwordOf_wordT (nk := 6) (by decide)]
  have hs0 : HoldsFrom w (6 * (n + 1)) (rollingTurn (n + 1) q).s0 :=
    h.s0.prefixXor hw (by omega) (by omega) (fun c hc => wordT_plain (by omega) (by omega)) hassist
  refine ⟨hs0, fun c hc hlt => ?_⟩
  have hs1 (c : Nat) : dword (rollingTurn (n + 1) q).s1 c =
      dword q.s1 c ^^^ dword (sllBytes q.s1 4) c ^^^ dword (bcast32 (rollingTurn (n + 1) q).s0 3) c := by
    simp only [rollingTurn, dword_xor]
  have hnext (c : Nat) (hc : c < 2) (hlt : 6 * (n + 1) + 4 + c < 52) : w.getD (6 * (n + 1) + 4 + c) 0 =
      w.getD (6 * n + 4 + c) 0 ^^^ w.getD (6 * (n + 1) + 3 + c) 0 := by
    have hword := hw.word (6 * (n + 1) + 4 + c) (by omega) hlt
    rwa [wordT_plain (by omega) (by omega), show 6 * (n + 1) + 4 + c - 6 = 6 * n + 4 + c by omega,
      show 6 * (n + 1) + 4 + c - 1 = 6 * (n + 1) + 3 + c by omega] at hword
  obtain ⟨hshift0, hshift1, -⟩ := dword_sllBytes_four q.s1
  rw [hs1, dword_bcast32 _ _ (by omega), hs0 3 (by decide), h.s1 c hc (by omega), hnext c hc hlt]
  interval_cases c
  · rw [hshift0, BitVec.xor_zero, dwordOf_xor]
  · have hfirst : w.getD (6 * (n + 1) + 3 + 1) 0 = w.getD (6 * n + 4 + 0) 0 ^^^ w.getD (6 * (n + 1) + 3) 0 :=
      hnext 0 (by decide) (by omega)
    rw [hshift1, h.s1 0 (by decide) (by omega), hfirst, dwordOf_xor, dwordOf_xor, BitVec.xor_assoc]

/-- The partial schedule with every word below 6·n in its place (R185). -/
structure Rolling.HoldsBelow (w : List Word) (n : Nat) (q : Rolling) : Prop where
  length : q.rk.length = 13
  word : ∀ r c, r < 13 → c < 4 → 4 * r + c < 6 * n → dword (q.rk.getD r 0) c = dwordOf (w.getD (4 * r + c) 0)

theorem getD_set_ite {α : Type} {xs : List α} {k : Nat} (h : k < xs.length) (v d : α) (i : Nat) :
    (xs.set k v).getD i d = if k = i then v else xs.getD i d := by
  split
  case isTrue hi =>
    subst hi
    exact getD_set_self h v d
  case isFalse hi => exact getD_set_of_ne xs hi v d

section
variable {w : List Word} {n : Nat} {q : Rolling}

/-- A dword of s0, named by the place of its word in the schedule. -/
theorem Rolling.HoldsBlock.dword_s0 (hb : q.HoldsBlock w n) {i c : Nat} (hc : c < 4) (hi : i = 6 * n + c) :
    dword q.s0 c = dwordOf (w.getD i 0) := hi ▸ hb.s0 c hc

/-- A dword of s1, named by the place of its word in the schedule. -/
theorem Rolling.HoldsBlock.dword_s1 (hb : q.HoldsBlock w n) {i c : Nat} (hc : c < 2) (hlt : i < 52) (hi : i = 6 * n + 4 + c) :
    dword q.s1 c = dwordOf (w.getD i 0) := by
  subst hi
  exact hb.s1 c hc hlt

variable (h : q.HoldsBelow w n) (hb : q.HoldsBlock w n)
include h hb

/-- An odd iteration completes the lane that is half full, with dwords 0 and 1 of s0, and fills the next one (R185). -/
theorem Rolling.HoldsBelow.write_odd (hn : n ≤ 7) (hodd : n % 2 = 1) : (rollingWrite n q).HoldsBelow w (n + 1) := by
  obtain ⟨k, hk, hk4⟩ : ∃ k, 1 + 3 * (n - 1) / 2 = k ∧ 4 * k + 2 = 6 * n := ⟨_, rfl, by omega⟩
  have hwrite := rollingWrite_odd q hodd
  have hlen := h.length
  rw [hk] at hwrite
  refine ⟨by rw [hwrite, List.length_set, List.length_set, hlen], fun r c hr hc hlt => ?_⟩
  rw [hwrite, getD_set_ite (by rw [List.length_set]; omega), getD_set_ite (by omega)]
  obtain hlow | ⟨d, hd, rfl⟩ : c < 2 ∨ ∃ d < 2, c = 2 + d := by
    by_cases hlow : c < 2
    · exact .inl hlow
    · exact .inr ⟨c - 2, by omega, by omega⟩
  · split
    · rw [dword_lanepair_high64 hlow]
      exact hb.dword_s0 (by omega) (by omega)
    · split
      case isTrue hrk =>
        rw [dword_lanepair_low64 hlow, hrk]
        exact h.word r c hr hc (by omega)
      case isFalse => exact h.word r c hr hc (by omega)
  · split
    · rw [dword_lanepair_above hd]
      exact hb.dword_s1 hd (by omega) (by omega)
    · split
      · rw [dword_lanepair_above hd]
        exact hb.dword_s0 (by omega) (by omega)
      · exact h.word r (2 + d) hr hc (by omega)

/-- An even iteration fills a lane with s0 and half of the next one with s1 (R185). -/
theorem Rolling.HoldsBelow.write_even (hn : n ≤ 7) (heven : n % 2 ≠ 1) : (rollingWrite n q).HoldsBelow w (n + 1) := by
  obtain ⟨k, hk, hk4⟩ : ∃ k, 3 * n / 2 = k ∧ 4 * k = 6 * n := ⟨_, rfl, by omega⟩
  have hwrite := rollingWrite_even q (by omega) heven
  have hlen := h.length
  rw [hk] at hwrite
  refine ⟨by rw [hwrite, List.length_set, List.length_set, hlen], fun r c hr hc hlt => ?_⟩
  rw [hwrite, getD_set_ite (by rw [List.length_set]; omega), getD_set_ite (by omega)]
  split
  · exact hb.dword_s1 (by omega) (by omega) (by omega)
  · split
    · exact hb.dword_s0 hc (by omega)
    · exact h.word r c hr hc (by omega)

/-- Each iteration puts its six words into their places; the last one puts the four that are left (R185). -/
theorem Rolling.HoldsBelow.write (hn : n ≤ 8) : (rollingWrite n q).HoldsBelow w (n + 1) := by
  by_cases h8 : n = 8
  · subst h8
    have hlen := h.length
    refine ⟨by rw [rollingWrite_last, List.length_set, hlen], fun r c hr hc _ => ?_⟩
    rw [rollingWrite_last, getD_set_ite (by omega)]
    split
    · exact hb.dword_s0 hc (by omega)
    · exact h.word r c hr hc (by omega)
  by_cases hodd : n % 2 = 1
  · exact h.write_odd hb (by omega) hodd
  · exact h.write_even hb (by omega) hodd

end

/-- What holds before iteration n + 1 of Expand192. -/
structure Rolling.HoldsWords (w : List Word) (n : Nat) (q : Rolling) : Prop where
  block : q.HoldsBlock w n
  below : q.HoldsBelow w (n + 1)

theorem Rolling.HoldsWords.iterate {w : List Word} (hw : ExpandedBelow 6 52 w) {n : Nat} (hn : n + 1 ≤ 8) {q : Rolling}
    (h : q.HoldsWords w n) : (rollingWrite (n + 1) (rollingTurn (n + 1) q)).HoldsWords w (n + 1) := by
  have hblock := h.block.turn hw hn
  obtain ⟨hs0, hs1⟩ := rollingWrite_rolling (n + 1) (rollingTurn (n + 1) q)
  have hbelow : (rollingTurn (n + 1) q).HoldsBelow w (n + 1) := ⟨h.below.length, h.below.word⟩
  exact ⟨⟨hs0 ▸ hblock.s0, hs1 ▸ hblock.s1⟩, hbelow.write hblock hn⟩

/-- The words that the key itself fills, as dwords (R133). -/
theorem byteAt_dwordOf_keyExpansion {nk nr i b : Nat} (key : Data) (hi : i < nk) (hb : b < 4) :
    byteAt (dwordOf ((keyExpansion nk nr key).getD i 0)) b = byteAt key (4 * i + b) := by
  rw [byteAt_dwordOf _ hb, keyExpansion_getD key hi]
  exact beByte_packBE (fun j => byteAt key (4 * i + j)) hb

/-- The key's six words are in place before the first iteration (R183). -/
theorem Rolling.holdsWords_start (hi : Half) (key : Data) :
    (⟨key.extractLsb' 0 128 :: lanepair (key.extractLsb' 128 64) hi :: List.replicate 11 0, key.extractLsb' 0 128,
      lanepair (key.extractLsb' 128 64) hi⟩ : Rolling).HoldsWords (keyExpansion 6 12 key) 0 := by
  have h0 : ∀ c < 4, dword (key.extractLsb' 0 128 : Lane) c = dwordOf ((keyExpansion 6 12 key).getD c 0) := fun c hc =>
    dword_ext fun b hb => by
      rw [byteAt_dwordOf_keyExpansion key (by omega) hb, byteAt_dword _ _ hb]
      exact (byteAt_extractLsb' key 0 (by omega)).trans (by rw [Nat.zero_add])
  have h1 : ∀ c < 2, dword (lanepair (key.extractLsb' 128 64) hi) c = dwordOf ((keyExpansion 6 12 key).getD (4 + c) 0) :=
    fun c hc => dword_ext fun b hb => by
      rw [byteAt_dwordOf_keyExpansion key (by omega) hb, byteAt_dword _ _ hb, ← byteAt_low64 _ (by omega), low64_lanepair,
        show 4 * (4 + c) + b = 16 + (4 * c + b) by omega]
      exact byteAt_extractLsb' key 16 (by omega)
  refine ⟨⟨fun c hc => ?_, fun c hc _ => h1 c hc⟩, ⟨rfl, fun r c hr hc hlt => ?_⟩⟩
  · rw [Nat.mul_zero, Nat.zero_add]
    exact h0 c hc
  · obtain rfl | rfl : r = 0 ∨ r = 1 := by omega
    · rw [Nat.mul_zero, Nat.zero_add]
      exact h0 c hc
    · exact h1 c (by omega)

/-- A partial schedule with all its words in place is the schedule laid into lanes. -/
theorem Rolling.HoldsBelow.eq_map {w : List Word} {n : Nat} {q : Rolling} (h : q.HoldsBelow w n) (hn : 52 ≤ 6 * n) :
    q.rk = (List.range 13).map (laneOf w) := by
  refine List.ext_getElem (by simp [h.length]) fun r hr _ => ?_
  have hr13 : r < 13 := h.length ▸ hr
  have hlane : q.rk.getD r 0 = laneOf w r :=
    HoldsFrom.eq_laneOf fun c hc => h.word r c hr13 hc (by omega)
  rw [List.getElem_map, List.getElem_range, ← hlane, List.getD_eq_getElem _ _ hr]

theorem expand192_eq (key : Data) : expand192 key = fallbackExpand 6 12 key := by
  have hw : ExpandedBelow 6 52 (keyExpansion 6 12 key) := keyExpansion_expanded (nk := 6) (nr := 12) (by decide) (by decide) key
  have hloop := forUp_rel (R := fun n q _ => q.HoldsWords (keyExpansion 6 12 key) (n - 1)) (g := fun _ => id) (y := ())
    (f := fun n q => rollingWrite n (rollingTurn n q)) (lo := 1) (hi := 8) (by decide) (Rolling.holdsWords_start 0 key)
    fun n q _ h1 h8 h => by
      obtain ⟨m, rfl⟩ : ∃ m, n = m + 1 := ⟨n - 1, by omega⟩
      exact h.iterate hw h8
  exact hloop.below.eq_map (by decide)

/-- Settles O49: one lemma for each key size. -/
theorem laneExpansionsAreTheWordExpansion : Obligations.LaneExpansionsAreTheWordExpansion := by
  unfold Obligations.LaneExpansionsAreTheWordExpansion
  intro k key
  cases k
  case k128 => exact expand128_eq key
  case k192 => exact expand192_eq key
  case k256 => exact expand256With_eq 0x00 key

end Sys2Proof.Machine
end

section
/-! PROOFS. The two paths agree (R85, R172), and encryption and decryption undo each other on both (R84). With a key loaded either
path computes the software ciphers over the software schedule of that key, so the laws of the software path are those of both. -/

namespace Sys2Proof.Machine

/-! ### The hardware ciphers over the lanes of a word schedule -/

/-- Loops with the same turns give the same result (R19). -/
theorem forUp_congr {α : Type} {lo hi : Nat} {f g : Nat → α → α} (h : ∀ i x, lo ≤ i → i ≤ hi → f i x = g i x) (x : α) :
    forUp lo hi f x = forUp lo hi g x := by
  obtain hlo | hlo := Nat.lt_or_ge hi lo
  · rw [forUp_empty _ _ hlo, forUp_empty _ _ hlo]
  · exact forUp_rel (R := fun _ x y => x = y) (by omega) rfl fun i x y h1 h2 hxy => hxy ▸ h i x h1 h2

/-- Counting up with mirrored turns is counting down (R19). -/
theorem forUp_mirror {α : Type} (n : Nat) (f : Nat → α → α) (x : α) : forUp 1 n (fun i => f (n + 1 - i)) x = forDown n 1 f x := by
  rw [forUp, forDown, Nat.add_sub_cancel, List.foldr_eq_foldl_reverse, List.reverse_range', List.range'_eq_map_range,
    List.foldl_map, List.foldl_map]
  congr 1
  funext y i
  rw [show n + 1 - (1 + i) = 1 + n - 1 - i by omega]

/-- Entry by entry, DeriveInverse is as `deriveInverse_mirrored` says also when there is no round: its two ends are then one. -/
theorem deriveInverse_mirrored_all (nr : Nat) (rk : List Lane) : MirroredBelow nr rk nr (deriveInverse nr rk) := by
  cases nr with
  | zero => exact ⟨rfl, rfl, rfl, fun i h1 h0 => absurd h1 (by omega)⟩
  | succ n => exact deriveInverse_mirrored rk (Nat.succ_pos n)

section
variable {nr : Nat} {w : List Word} {rk : List Lane} (h : ∀ r ≤ nr, rk.getD r 0 = laneOf w r)
include h

theorem hwCipher_eq_swCipher (b : Lane) : hwCipher nr b rk = swCipher nr b w := by
  have hround (i : Nat) (x : Lane) (_ : 1 ≤ i) (hi : i ≤ nr - 1) : aesenc x (rk.getD i 0) = swRound w i x := by
    rw [aesenc, swRound, addRoundKeyW_eq_xor, h i (by omega)]
  have hfirst : b ^^^ rk.getD 0 0 = addRoundKeyW b w 0 := by rw [h 0 (Nat.zero_le _)]; exact (addRoundKeyW_eq_xor b w 0).symm
  rw [hwCipher, swCipher, forUp_congr hround, hfirst, aesenclast, h nr le_rfl, addRoundKeyW_eq_xor]

/-- A round over an inner lane of the decryption schedule: its key has gone through InvMixColumns, which respects XOR, so the
round adds the plain key before that (R121, R152, R190). -/
theorem aesdec_aesimc (x : Lane) {r : Nat} (hr : r ≤ nr) : aesdec x (aesimc (rk.getD r 0)) = swInvRound w r x := by
  rw [aesdec, aesimc, ← invMixColumns_xor, h r hr, ← addRoundKeyW_eq_xor, swInvRound]

theorem hwInvCipher_eq_swInvCipher (b : Lane) : hwInvCipher nr b (deriveInverse nr rk) = swInvCipher nr b w := by
  have hdrk := deriveInverse_mirrored_all nr rk
  have hround (i : Nat) (x : Lane) (h1 : 1 ≤ i) (hi : i ≤ nr - 1) :
      aesdec x ((deriveInverse nr rk).getD i 0) = swInvRound w (nr - 1 + 1 - i) x := by
    have hinner := hdrk.inner (nr - i) (by omega) (by omega)
    rw [Nat.sub_sub_self (by omega)] at hinner
    rw [hinner, aesdec_aesimc h x (by omega), Nat.sub_add_cancel (by omega)]
  have hlast (x : Lane) : x ^^^ laneOf w 0 = addRoundKeyW x w 0 := (addRoundKeyW_eq_xor x w 0).symm
  rw [hwInvCipher, swInvCipher, hdrk.first, hdrk.last, forUp_congr hround, forUp_mirror (nr - 1) (swInvRound w), aesdeclast,
    h 0 (Nat.zero_le _), hlast, h nr le_rfl, ← addRoundKeyW_eq_xor]

end

/-- Settles O47: `hwCipher_eq_swCipher` and `hwInvCipher_eq_swInvCipher`, round by round. -/
theorem hwCiphersAgreeWithSwCiphers : Obligations.HwCiphersAgreeWithSwCiphers := by
  unfold Obligations.HwCiphersAgreeWithSwCiphers
  exact fun nr b w rk h => ⟨hwCipher_eq_swCipher h b, hwInvCipher_eq_swInvCipher h b⟩

/-! ### A loaded key on either path -/

/-- The software schedule of the key in DIN[0..4·Nk) (R80, R133). -/
def wordSchedule (k : KeySize) (din : Data) : List Word := keyExpansion k.nk k.nr (keyOperand k din)

theorem hwExpand_getD {k : KeySize} {r : Nat} (din : Data) (hr : r ≤ k.nr) :
    (hwExpand k (keyOperand k din)).getD r 0 = laneOf (wordSchedule k din) r := by
  rw [laneExpansionsAreTheWordExpansion]
  exact getD_map_laneOf _ (Nat.lt_succ_of_le hr)

section
variable {s t : State} {key : Data} (h : s.ScheduleOf key)
include h

/-- With a key loaded ENCRYPT is SwCipher over its word schedule (R81, R85). -/
theorem State.ScheduleOf.cipher_eq (b : Lane) :
    s.cipher b = swCipher s.params.keySize.nr b (wordSchedule s.params.keySize key) := by
  rw [State.cipher]
  cases hp : s.params.path with
  | sw => simp only [h.w_eq hp, wordSchedule]
  | hw => simp only [h.rk_eq hp, hwCipher_eq_swCipher fun r hr => hwExpand_getD key hr]

/-- With a key loaded DECRYPT is SwInvCipher over its word schedule (R82, R85). -/
theorem State.ScheduleOf.invCipher_eq (b : Lane) :
    s.invCipher b = swInvCipher s.params.keySize.nr b (wordSchedule s.params.keySize key) := by
  rw [State.invCipher]
  cases hp : s.params.path with
  | sw => simp only [h.w_eq hp, wordSchedule]
  | hw => simp only [h.drk_eq hp, h.rk_eq hp, hwInvCipher_eq_swInvCipher fun r hr => hwExpand_getD key hr]

/-- With a key loaded RDRK fwd reads the lanes of its word schedule (R83, R85). -/
theorem State.ScheduleOf.roundKey_eq {r : Nat} (hr : r ≤ s.params.keySize.nr) :
    s.roundKey r = laneOf (wordSchedule s.params.keySize key) r := by
  cases hp : s.params.path with
  | sw => rw [State.roundKey_sw hp, h.w_eq hp, wordSchedule]
  | hw => rw [State.roundKey_hw hp, h.rk_eq hp, hwExpand_getD key hr]

/-- Two instances with one KEY_BITS, one key and one request do the same with it. -/
theorem State.ScheduleOf.sameFunctions (ht : t.ScheduleOf key) (hk : s.params.keySize = t.params.keySize)
    (hv : s.keyValid = t.keyValid) (hdin : s.din = t.din) : s.SameFunctions t where
  keySize := hk
  keyValid := hv
  din := hdin
  cipher _ b := by rw [h.cipher_eq, ht.cipher_eq, hk]
  invCipher _ b := by rw [h.invCipher_eq, ht.invCipher_eq, hk]
  roundKey _ r hr := by rw [h.roundKey_eq hr, ht.roundKey_eq (hk ▸ hr), hk]

theorem State.ScheduleOf.invCipher_cipher (b : Lane) : s.invCipher (s.cipher b) = b := by
  rw [h.cipher_eq, h.invCipher_eq, (swInvCipherUndoesSwCipher _ _ _).1]

theorem State.ScheduleOf.cipher_invCipher (b : Lane) : s.cipher (s.invCipher b) = b := by
  rw [h.invCipher_eq, h.cipher_eq, (swInvCipherUndoesSwCipher _ _ _).2]

end

/-! ### Laws 1, 2 and 3 -/

/-- The transaction of ENCRYPT with a key (R81). -/
theorem issue_encrypt {s : State} (hv : s.keyValid = true) (din : Data) :
    issue s 0x00000002 din = .next (s.respond (s.cipher (din.extractLsb' 0 128))) := by
  have hanswer := execEncrypt_eq (s.present 0x00000002 din)
  rw [State.needKey_valid (s := s.present 0x00000002 din) hv] at hanswer
  exact (issue_ok s din (by decide : decode 0x00000002 = .ok .encrypt)).trans (congrArg (retire s.inbox) hanswer)

/-- The transaction of DECRYPT with a key (R82). -/
theorem issue_decrypt {s : State} (hv : s.keyValid = true) (din : Data) :
    issue s 0x00000003 din = .next (s.respond (s.invCipher (din.extractLsb' 0 128))) := by
  have hanswer := execDecrypt_eq (s.present 0x00000003 din)
  rw [State.needKey_valid (s := s.present 0x00000003 din) hv] at hanswer
  exact (issue_ok s din (by decide : decode 0x00000003 = .ok .decrypt)).trans (congrArg (retire s.inbox) hanswer)

/-- Settles O33: a response leaves the key loaded, and over one key `invCipher` and `cipher` undo each other. -/
theorem encryptAndDecryptUndoEachOther : Obligations.EncryptAndDecryptUndoEachOther := by
  unfold Obligations.EncryptAndDecryptUndoEachOther
  intro s key blk
  obtain ⟨t, ht, -, hv, hsched⟩ := issue_setkey s key
  refine ⟨t, _, _, ht, issue_encrypt hv blk, issue_decrypt hv blk, fun din hdin => ⟨_, issue_decrypt hv din, rfl, ?_⟩,
    fun din hdin => ⟨_, issue_encrypt hv din, rfl, ?_⟩⟩
  · rw [hdin]
    exact hsched.invCipher_cipher _
  · rw [hdin]
    exact hsched.cipher_invCipher _

/-- Outcomes that answer alike have the same response. -/
theorem AnswersAlike.response {s t : State} {o p : Host.Outcome State Fault Refusal} (h : AnswersAlike s t o p)
    (rest rest' : List Input) : ∃ s' t' : State, retire rest o = .next s' ∧ retire rest' p = .next t' ∧
      s'.status = t'.status ∧ s'.dout = t'.dout := by
  cases h with
  | respond hv => exact ⟨_, _, rfl, rfl, rfl, hv⟩
  | reject c => exact ⟨_, _, rfl, rfl, rfl, rfl⟩

/-- Settles O34: an illegal word is rejected, SETKEY answers OK with 16 zero bytes, and on every other word but RDRK dec two
instances with one key answer alike (`State.SameFunctions.exec`). -/
theorem bothPathsAnswerAlike : Obligations.BothPathsAnswerAlike := by
  unfold Obligations.BothPathsAnswerAlike
  intro s t key _ _ hk
  obtain ⟨s₁, hs, hsparams, hsv, hssched⟩ := issue_setkey s key
  obtain ⟨t₁, ht, htparams, htv, htsched⟩ := issue_setkey t key
  have hk₁ : s₁.params.keySize = t₁.params.keySize := by rw [hsparams, htparams, hk]
  refine ⟨s₁, t₁, hs, ht, fun cmd din hdec => ?_⟩
  cases hd : decode cmd with
  | error e => exact ⟨_, _, issue_error s₁ din hd, issue_error t₁ din hd, rfl, rfl⟩
  | ok i =>
    rw [issue_ok s₁ din hd, issue_ok t₁ din hd]
    by_cases hi : i = .setkey
    · subst hi
      obtain ⟨s₂, hs₂, -⟩ := execSetkey_keyed (s₁.present cmd din)
      obtain ⟨t₂, ht₂, -⟩ := execSetkey_keyed (t₁.present cmd din)
      obtain ⟨hsstatus, hsdout⟩ := execSetkey_response hs₂
      obtain ⟨htstatus, htdout⟩ := execSetkey_response ht₂
      exact ⟨_, _, congrArg (retire _) hs₂, congrArg (retire _) ht₂, hsstatus.trans htstatus.symm, hsdout.trans htdout.symm⟩
    · have hspresent : (s₁.present cmd din).ScheduleOf key := hssched
      have hsame := hspresent.sameFunctions (t := t₁.present cmd din) htsched hk₁ (hsv.trans htv.symm) rfl
      exact (hsame.exec hi fun r hr => hdec r (hd.trans (congrArg _ hr))).response _ _

end Sys2Proof.Machine
end

section
/-! PROOFS. The match/mask rows of R68, field by field, and the assembler of R69: the DIN of each operand form is zero above the
operand's field. -/

namespace Sys2Proof

/-! ### Match and mask -/

/-- The bits of IMM8 that a row fixes: none where the command uses them (R63, R68). -/
def immMask (i : Instr) : Byte := if opcode i ∈ immOpcodes then 0 else 0xFF

/-- The bit SEL where a row fixes it: everywhere but in RDRK's (R63, R68). -/
def selMask (i : Instr) : BitVec 1 := if opcode i = 0x04 then 0 else 1

/-- A row fixes all of RSV and OPC. -/
theorem rowMask_fields (i : Instr) : rowMask i = (BitVec.allOnes 15) ++ selMask i ++ immMask i ++ (BitVec.allOnes 8) := by
  cases i <;> simp [rowMask, selMask, immMask, opcode, immOpcodes]

theorem rowMatch_fields (i : Instr) : rowMatch i = (0 : BitVec 15) ++ (0 : BitVec 1) ++ (0 : Byte) ++ opcode i := by
  cases i <;>
    · simp only [rowMatch, opcode]
      decide

/-- Two words with the same four fields are the same word (R60). -/
theorem fields_inj {rsv rsv' : BitVec 15} {sel sel' : BitVec 1} {imm imm' opc opc' : Byte} :
    rsv ++ sel ++ imm ++ opc = rsv' ++ sel' ++ imm' ++ opc' ↔ rsv = rsv' ∧ sel = sel' ∧ imm = imm' ∧ opc = opc' := by
  constructor
  · intro h
    refine ⟨?_, ?_, ?_, ?_⟩
    · simpa only [cmdRsv_fields] using congrArg cmdRsv h
    · simpa only [cmdSel_fields] using congrArg cmdSel h
    · simpa only [cmdImm8_fields] using congrArg cmdImm8 h
    · simpa only [cmdOpc_fields] using congrArg cmdOpc h
  · rintro ⟨rfl, rfl, rfl, rfl⟩
    rfl

/-- A word meets a row when its OPC is the row's and every field bit the row fixes is zero (R68). -/
theorem meets_row_iff {cmd : Word} {i : Instr} :
    cmd &&& rowMask i = rowMatch i ↔
      cmdRsv cmd = 0 ∧ cmdSel cmd &&& selMask i = 0 ∧ cmdImm8 cmd &&& immMask i = 0 ∧ cmdOpc cmd = opcode i := by
  rw [rowMask_fields, rowMatch_fields, cmd_eq_fields cmd, BitVec.and_append, BitVec.and_append, BitVec.and_append, fields_inj,
    BitVec.and_allOnes, BitVec.and_allOnes, cmdRsv_fields, cmdSel_fields, cmdImm8_fields, cmdOpc_fields]

theorem and_selMask_iff {b : BitVec 1} {i : Instr} : b &&& selMask i = 0 ↔ b = 0 ∨ opcode i = 0x04 := by
  unfold selMask
  split
  · next h => simp [h]
  · next h =>
      have hone : (1 : BitVec 1) = BitVec.allOnes 1 := rfl
      rw [hone, BitVec.and_allOnes, or_iff_left h]

theorem and_immMask_iff {b : Byte} {i : Instr} : b &&& immMask i = 0 ↔ b = 0 ∨ opcode i ∈ immOpcodes := by
  unfold immMask
  split
  · next h => simp [h]
  · next h =>
      have hones : (0xFF : Byte) = BitVec.allOnes 8 := rfl
      rw [hones, BitVec.and_allOnes, or_iff_left h]

/-- Settles O5: what a row asks of a word (`meets_row_iff`) is what R63 asks of a legal word with the row's opcode
(`exists_decode_eq_ok_iff`). -/
theorem matchMaskRowsAgreeWithTheDecoder : Obligations.MatchMaskRowsAgreeWithTheDecoder := by
  unfold Obligations.MatchMaskRowsAgreeWithTheDecoder
  refine ⟨fun cmd i h => ?_, fun cmd i h => ?_⟩
  · obtain ⟨-, hrsv, hopc, himm, hsel⟩ := decode_eq_ok_iff.mp h
    refine meets_row_iff.mpr ⟨hrsv, and_selMask_iff.mpr ?_, and_immMask_iff.mpr ?_, hopc⟩
    · exact hsel ▸ selField_eq_zero_or i
    · exact himm ▸ immField_eq_zero_or i
  · obtain ⟨hrsv, hsel, himm, hopc⟩ := meets_row_iff.mp h
    rw [and_selMask_iff, ← hopc] at hsel
    rw [and_immMask_iff, ← hopc] at himm
    obtain ⟨j, hj⟩ := (exists_decode_eq_ok_iff cmd).mpr ⟨hrsv, hopc ▸ opcode_mem_assignedOpcodes i, himm, hsel⟩
    obtain ⟨-, -, hjopc, -, -⟩ := decode_eq_ok_iff.mp hj
    exact ⟨j, hj, hjopc.symm.trans hopc⟩

/-- Settles O6: the decoder run on each word. -/
theorem wordsWrittenFromR68Decode : Obligations.WordsWrittenFromR68Decode := by
  unfold Obligations.WordsWrittenFromR68Decode
  decide

end Sys2Proof

namespace Sys2Proof.Machine

/-! ### The operands of a line -/

/-- DIN holds nothing from byte n on. -/
def ZeroFrom (n : Nat) (din : Data) : Prop := ∀ b : Nat, n ≤ b → byteAt din b = 0

theorem ZeroFrom.mono {m n : Nat} {din : Data} (h : ZeroFrom m din) (hmn : m ≤ n) : ZeroFrom n din :=
  fun b hb => h b (hmn.trans hb)

theorem byteAt_or {n : Nat} (x y : BitVec n) (i : Nat) : byteAt (x ||| y) i = byteAt x i ||| byteAt y i := by
  apply BitVec.eq_of_getLsbD_eq
  intro j hj
  simp only [getLsbD_byteAt, BitVec.getLsbD_or, hj, decide_true, Bool.true_and]

theorem ZeroFrom.or {n : Nat} {x y : Data} (hx : ZeroFrom n x) (hy : ZeroFrom n y) : ZeroFrom n (x ||| y) := fun b hb => by
  rw [byteAt_or, hx b hb, hy b hb, BitVec.or_self]

theorem zeroFrom_zero (n : Nat) : ZeroFrom n 0 := fun b _ => by
  apply BitVec.eq_of_getLsbD_eq
  intro j hj
  simp [getLsbD_byteAt]

/-- A byte moved up to place `off` leaves nothing above that place. -/
theorem zeroFrom_shifted (x : Byte) (off : Nat) : ZeroFrom (off + 1) (x.setWidth 256 <<< (8 * off)) := fun b hb => by
  apply BitVec.eq_of_getLsbD_eq
  intro j hj
  have hout : x.getLsbD (8 * b + j - 8 * off) = false := x.getLsbD_of_ge _ (by omega)
  simp [getLsbD_byteAt, hout]

/-- Bytes placed from `off` on end where they end (R69). -/
theorem zeroFrom_placeBytes (bs : List Byte) (off : Nat) : ZeroFrom (off + bs.length) (placeBytes off bs) := by
  induction bs generalizing off with
  | nil => exact zeroFrom_zero _
  | cons b bs ih =>
    rw [placeBytes, List.length_cons]
    exact ((zeroFrom_shifted b off).mono (by omega)).or ((ih (off + 1)).mono (by omega))

/-- An operand stays in its field (R69). -/
theorem zeroFrom_fieldOperand {name : String} {off size n : Nat} {word : List Char} {d : Data}
    (h : fieldOperand name off size word = some d) (hn : off + size ≤ n) : ZeroFrom n d := by
  unfold fieldOperand at h
  simp only at h
  split at h
  case isFalse => cases h
  case isTrue =>
    split at h
    case h_2 => cases h
    case h_1 bs _ =>
      split at h
      case isFalse => cases h
      case isTrue hlen =>
        cases h
        exact (zeroFrom_placeBytes bs off).mono (by omega)

theorem lt_of_guarded {o : Option Nat} {n v : Nat} (h : (o.bind fun u => if u < n then some u else none) = some v) : v < n := by
  obtain ⟨u, -, hu⟩ := Option.bind_eq_some_iff.mp h
  split at hu
  case isTrue hlt =>
    cases hu
    exact hlt
  case isFalse => cases hu

/-- An immediate fits IMM8 (R66, R69). -/
theorem immediate_lt {word : List Char} {v : Nat} (h : immediate word = some v) : v < 256 := by
  unfold immediate at h
  split at h <;> exact lt_of_guarded h

/-- A command found by its mnemonic is one of the table's. -/
theorem exists_of_commandNamed {table : List (String × Instr)} {m : List Char} {i : Instr} (h : commandNamed table m = some i) :
    ∃ row ∈ table, row.2 = i := by
  obtain ⟨row, hrow, rfl⟩ := Option.map_eq_some_iff.mp h
  exact ⟨row, List.mem_of_find?_eq_some hrow, rfl⟩

/-- The commands with one operand of 16 bytes read those (R62, R69). -/
theorem stateCommands_dinUsed (k : KeySize) : ∀ row ∈ stateCommands, row.2.wellFormed = true ∧ dinUsed k row.2 = 16 := by
  simp [stateCommands, Instr.wellFormed, dinUsed]

/-- The commands with two operands of 16 bytes read both (R62, R69). -/
theorem stateKeyCommands_dinUsed (k : KeySize) : ∀ row ∈ stateKeyCommands, row.2.wellFormed = true ∧ dinUsed k row.2 = 32 := by
  simp [stateKeyCommands, Instr.wellFormed, dinUsed]

/-! ### The forms of R69 -/

/-- A command the encoding can carry, with nothing in DIN above what it reads. -/
structure Assembled (k : KeySize) (i : Instr) (din : Data) : Prop where
  wellFormed : i.wellFormed = true
  zero : ZeroFrom (dinUsed k i) din

section
variable {k : KeySize} {i : Instr} {din : Data}

/-- A form with one operand: its field is among what the command reads. -/
theorem assembled_of_field {j : Instr} {name : String} {off size : Nat} {word : List Char} (hwf : j.wellFormed = true)
    (hn : off + size ≤ dinUsed k j) (h : ((fieldOperand name off size word).map fun d => (j, d)) = some (i, din)) :
    Assembled k i din := by
  obtain ⟨d, hd, heq⟩ := Option.map_eq_some_iff.mp h
  cases heq
  exact ⟨hwf, zeroFrom_fieldOperand hd hn⟩

/-- The forms of two words: a mnemonic and one operand. -/
theorem assembled_of_two_words {m a : List Char} (h : assembleWords k [m, a] = some (i, din)) : Assembled k i din := by
  unfold assembleWords at h
  dsimp only at h
  split_ifs at h
  case neg =>
    obtain ⟨j, hj, hbind⟩ := Option.bind_eq_some_iff.mp h
    obtain ⟨d, hd, hpair⟩ := Option.bind_eq_some_iff.mp hbind
    cases hpair
    obtain ⟨row, hrow, rfl⟩ := exists_of_commandNamed hj
    obtain ⟨hwf, hused⟩ := stateCommands_dinUsed k row hrow
    exact ⟨hwf, zeroFrom_fieldOperand hd hused.ge⟩
  all_goals exact assembled_of_field rfl (by simp [dinUsed]) h

/-- The forms of three words: a mnemonic and two operands. -/
theorem assembled_of_three_words {m a b : List Char} (h : assembleWords k [m, a, b] = some (i, din)) : Assembled k i din := by
  unfold assembleWords at h
  dsimp only at h
  split at h
  · obtain ⟨r, hr, hsel⟩ := Option.bind_eq_some_iff.mp h
    have hwf (sel : Sel) : (Instr.rdrk r sel).wellFormed = true := decide_eq_true (immediate_lt hr)
    split_ifs at hsel <;>
      · cases hsel
        exact ⟨hwf _, zeroFrom_zero _⟩
  split at h
  · obtain ⟨d, hd, hbind⟩ := Option.bind_eq_some_iff.mp h
    obtain ⟨imm8, -, hpair⟩ := Option.bind_eq_some_iff.mp hbind
    cases hpair
    exact ⟨rfl, zeroFrom_fieldOperand hd le_rfl⟩
  split at h
  · obtain ⟨x, hx, hbind⟩ := Option.bind_eq_some_iff.mp h
    obtain ⟨y, hy, hpair⟩ := Option.bind_eq_some_iff.mp hbind
    cases hpair
    exact ⟨rfl, (zeroFrom_fieldOperand hx (by simp [dinUsed])).or (zeroFrom_fieldOperand hy le_rfl)⟩
  split at h
  · obtain ⟨d, hd, hbind⟩ := Option.bind_eq_some_iff.mp h
    obtain ⟨j, hj, hpair⟩ := Option.bind_eq_some_iff.mp hbind
    cases hpair
    exact ⟨decide_eq_true (immediate_lt hj), zeroFrom_fieldOperand hd le_rfl⟩
  · obtain ⟨j, hj, hbind⟩ := Option.bind_eq_some_iff.mp h
    obtain ⟨x, hx, hbind'⟩ := Option.bind_eq_some_iff.mp hbind
    obtain ⟨y, hy, hpair⟩ := Option.bind_eq_some_iff.mp hbind'
    cases hpair
    obtain ⟨row, hrow, rfl⟩ := exists_of_commandNamed hj
    obtain ⟨hwf, hused⟩ := stateKeyCommands_dinUsed k row hrow
    exact ⟨hwf, (zeroFrom_fieldOperand hx (by omega)).or (zeroFrom_fieldOperand hy (by omega))⟩

/-- No other number of words has a form (R69). -/
theorem assembled_of_assembleWords {words : List (List Char)} (h : assembleWords k words = some (i, din)) :
    Assembled k i din := by
  match words, h with
  | [_, _], h => exact assembled_of_two_words h
  | [_, _, _], h => exact assembled_of_three_words h

end

/-- Settles O7: the request carries the encoding of a well-formed command (`assembled_of_assembleWords`), which the decoder reads
back (`decodeOfEncodeIsTheCommand`). -/
theorem assembledLinesAreLegalCommands : Obligations.AssembledLinesAreLegalCommands := by
  unfold Obligations.AssembledLinesAreLegalCommands
  intro k line cmd din h
  obtain ⟨⟨i, d⟩, hwords, hreq⟩ := Option.map_eq_some_iff.mp h
  cases hreq
  obtain ⟨hwf, hzero⟩ := assembled_of_assembleWords hwords
  exact ⟨i, decodeOfEncodeIsTheCommand i hwf, hzero⟩

end Sys2Proof.Machine
end
